-- ==== Sys2Proof/Word.lean ====
section
/-! DEFINITION. The two word types of FRMCODEC: the octet every register holds (spec/10_state.md R20) and
the 17-bit transaction word (spec/30_encoding.md R77). -/

namespace Sys2Proof

/-- One octet: the width of every register, of every frame field and of every transaction's data (R20, R54). -/
abbrev Byte := BitVec 8

/-- A host-port transaction word `T[16:0]`: W at bit 16, the address in bits 15..8, the data in bits 7..0 (R77). -/
abbrev TxWord := BitVec 17

end Sys2Proof
end

