-- ==== Sys2Proof/Config.lean ====
section
/-! DEFINITION. The implementation parameters of spec/00_scope.md R5: the fixed sizes, the four build-time
parameters with the values each may take, and the parameters of this hardware, whose two OPEN message-type codes have no
value anywhere in the model. -/

namespace Sys2Proof

/-- HDR_LEN: cycle, messageType and peripheralId (R5). -/
abbrev hdrLen : Nat := 3

/-- PAYLOAD_CAP: the payload octets of a frame (R5). -/
abbrev payloadCap : Nat := 9

/-- FRAME_LEN, fixed at 12 octets (R5, decision D3). -/
abbrev frameLen : Nat := 12

/-- TEXT_CAP: the sensor-text octets, frame bytes 7..11 (R5). -/
abbrev textCap : Nat := 5

/-- LEN_CONV, the reading of the declared length (R5, R132). -/
inductive LenConv where
  /-- EXACT: the declared length counts the text octets alone. -/
  | exact
  /-- INCLUSIVE: the declared length counts the length byte too. -/
  | inclusive
deriving DecidableEq, Repr

/-- RXP_ORDER, which check RXP makes first (R5, R137). -/
inductive RxpOrder where
  /-- DEDUP_FIRST: the duplicate check, then the type check. -/
  | dedupFirst
  /-- TYPE_FIRST: the type check, then the duplicate check. -/
  | typeFirst
deriving DecidableEq, Repr

/-- The build-time parameters of the block (R5, R6, R183 item 1). They are no registers, and no transaction changes them. -/
structure Params where
  /-- MT_REQUEST_REPORT, OPEN. No command compares anything with it (R73). -/
  mtRequestReport : Byte
  /-- MT_RESPONSE_REPORT, OPEN, different from MT_REQUEST_REPORT. -/
  mtResponseReport : Byte
  /-- LEN_CONV. -/
  lenConv : LenConv
  /-- RXP_ORDER. -/
  rxpOrder : RxpOrder
  /-- CYC_RESET, any octet but 0x00. -/
  cycReset : Byte
deriving DecidableEq, Repr

/-- The constraints R5 puts on the parameters. -/
def Params.wf (p : Params) : Bool :=
  p.mtRequestReport != p.mtResponseReport && p.cycReset != 0x00#8

namespace Config

/-- MT_RESPONSE_REPORT of this hardware: OPEN (R5, decision D12), so it has no body and no proof can see a value of it
(notes/assumptions/5). -/
opaque mtResponseReport : Byte

/-- How far MT_REQUEST_REPORT lies beyond the octet after MT_RESPONSE_REPORT, modulo 256. It has no body; its range keeps
the two codes different and lets them be any two different octets (DESIGN CHOICE, safe: notes/assumptions/5). -/
opaque mtRequestOffset : Fin 255

/-- MT_REQUEST_REPORT of this hardware: OPEN, and different from MT_RESPONSE_REPORT (R5). -/
def mtRequestReport : Byte :=
  mtResponseReport + 1#8 + BitVec.ofNat 8 mtRequestOffset.val

/-- The parameters of this hardware: R5's defaults (DEDUCED, unsafe: notes/assumptions/6), and the two OPEN codes left free. -/
def hardware : Params :=
  { mtRequestReport := mtRequestReport
    mtResponseReport := mtResponseReport
    lenConv := .exact
    rxpOrder := .dedupFirst
    cycReset := 0x63#8 }

end Config

end Sys2Proof
end

