-- ==== Sys2Proof/Syntax.lean ====
section
/-! DEFINITION. The instructions of spec/opcode_table.json (the two transaction kinds and the commands, R7), and the
registers by name (the table of spec/10_state.md R20). -/

namespace Sys2Proof

/-- One constructor per row of spec/opcode_table.json. -/
inductive Instr where
  /-- RD: read the register at address `a` (R100). -/
  | rd (a : Byte)
  /-- WR: write `v` to the register at address `a` (R101). A write to CMD is one of the commands below. -/
  | wr (a v : Byte)
  /-- NOP, command 0x00 (R102). -/
  | nop
  /-- ENC, command 0x01 (R110). -/
  | enc
  /-- DEC, command 0x02 (R112). -/
  | dec
  /-- NXT, command 0x03 (R120). -/
  | nxt
  /-- ACC, command 0x04 (R122). -/
  | acc
  /-- RPT, command 0x05 (R136). -/
  | rpt
  /-- RXP, command 0x06 (R137). -/
  | rxp
  /-- RESERVED_CMD: a reserved command value `v`, 0x07–0xFF (R103). -/
  | reservedCmd (v : Byte)
deriving DecidableEq, Repr

/-- The registers the map of R20 names. Addresses 0x39–0xFF name none. -/
inductive Reg where
  | fb (i : Fin 12)
  | cmd
  | status
  | cyc
  | seqOut
  | txCyc
  | txType
  | txId
  | txPlen
  | txPay (j : Fin 9)
  | accIn
  | rssiLo
  | rssiHi
  | rxCyc
  | rxType
  | rxId
  | rxPay (j : Fin 9)
  | rxpRes
  | rptId
  | rptRssi
  | rptLen
  | rptText (k : Fin 5)
  | rptAux (k : Fin 3)
  | rptDecl
deriving DecidableEq, Repr

/-- The access rights of R20 for a mapped register. -/
inductive RegKind where
  /-- The host may read and write it. -/
  | rw
  /-- Host writes are ignored. -/
  | ro
  /-- Reads return 0x00 and a write performs a command. -/
  | wo
deriving DecidableEq, Repr

end Sys2Proof
end

