-- ==== Sys2Proof/WellFormed.lean ====
section
/-! DEFINITION. The check on an instruction as syntax: which constructors' operands the opcode table's rows admit. -/

namespace Sys2Proof

/-- A WR row has an address other than CMD (a write to CMD is a command row, which takes priority), and a RESERVED_CMD row
has an op of at least 0x07 (spec/opcode_table.json, notes of rows WR and RESERVED_CMD; R76, R78). -/
def Instr.wf : Instr → Bool
  | .rd _ => true
  | .wr a _ => a != 0x0C#8
  | .nop => true
  | .enc => true
  | .dec => true
  | .nxt => true
  | .acc => true
  | .rpt => true
  | .rxp => true
  | .reservedCmd v => decide (0x07 ≤ v.toNat)

/-- The instruction is one the opcode table's rows admit. -/
abbrev Instr.WellFormed (i : Instr) : Prop := i.wf = true

end Sys2Proof
end

