-- ==== Sys2Proof/Decode.lean ====
section
/-! DEFINITION. The encodings of spec/30_encoding.md: the transaction word (R77, R78) and the command octet (R74–R76), read by
`decode` and written by `encode`; and the register addresses of spec/10_state.md R20. -/

namespace Sys2Proof

/-- The address of CMD (R20, R22). -/
def cmdAddr : Byte := 0x0C#8

/-- The command opcode map (R75), and the reserved values (R76). -/
def decodeCommand (v : Byte) : Instr :=
  match v.toNat with
  | 0x00 => .nop
  | 0x01 => .enc
  | 0x02 => .dec
  | 0x03 => .nxt
  | 0x04 => .acc
  | 0x05 => .rpt
  | 0x06 => .rxp
  | _ => .reservedCmd v

/-- T[16], the W field (R77). -/
def wField (w : TxWord) : Bool := w.getLsbD 16

/-- T[15:8], the A field (R77). -/
def aField (w : TxWord) : Byte := w.extractLsb' 8 8

/-- T[7:0], the D field (R77). -/
def dField (w : TxWord) : Byte := w.extractLsb' 0 8

/-- Decoding is total: every transaction word is one RD or one WR, a WR to CMD is a command, and the D field of a read is
ignored (R78). -/
def decode (w : TxWord) : Instr :=
  if wField w then
    if aField w = cmdAddr then decodeCommand (dField w) else .wr (aField w) (dField w)
  else .rd (aField w)

/-- Why a number is no transaction word. -/
inductive DecodeError where
  /-- The number needs more than the 17 bits of a transaction word (R77, R80: every transaction is one 17-bit word). -/
  | notATransactionWord
deriving DecidableEq, Repr

/-- The instruction a number stands for as a transaction word; a number beyond 17 bits is rejected by name. -/
def decodeNat (n : Nat) : Except DecodeError Instr :=
  if n < 2 ^ 17 then .ok (decode (BitVec.ofNat 17 n)) else .error .notATransactionWord

/-- The word of a WR: `0x10000 | a << 8 | v` (R77). -/
def writeWord (a v : Byte) : TxWord := 0x10000#17 ||| a.setWidth 17 <<< 8 ||| v.setWidth 17

/-- The word of a RD in its canonical spelling: `a << 8` (R77; DEDUCED, safe: notes/assumptions/8). -/
def readWord (a : Byte) : TxWord := a.setWidth 17 <<< 8

/-- The transaction word of an instruction (R75, R77; a read in its canonical spelling). -/
def encode : Instr → TxWord
  | .rd a => readWord a
  | .wr a v => writeWord a v
  | .nop => writeWord cmdAddr 0x00#8
  | .enc => writeWord cmdAddr 0x01#8
  | .dec => writeWord cmdAddr 0x02#8
  | .nxt => writeWord cmdAddr 0x03#8
  | .acc => writeWord cmdAddr 0x04#8
  | .rpt => writeWord cmdAddr 0x05#8
  | .rxp => writeWord cmdAddr 0x06#8
  | .reservedCmd v => writeWord cmdAddr v

/-- The decoder on a word of spec/opcode_table.json's own numbering: T[16:0] with bit 0 least significant, cut to `nbits`. -/
def decodeTableWord (nbits w : Nat) : Option Instr :=
  match decodeNat (w % 2 ^ nbits) with
  | .ok i => some i
  | .error _ => none

/-- The address of a register (the table of R20). -/
def Reg.addr : Reg → Byte
  | .fb i => BitVec.ofNat 8 i.val
  | .cmd => 0x0C#8
  | .status => 0x0D#8
  | .cyc => 0x0E#8
  | .seqOut => 0x0F#8
  | .txCyc => 0x10#8
  | .txType => 0x11#8
  | .txId => 0x12#8
  | .txPlen => 0x13#8
  | .txPay j => BitVec.ofNat 8 (0x14 + j.val)
  | .accIn => 0x1D#8
  | .rssiLo => 0x1E#8
  | .rssiHi => 0x1F#8
  | .rxCyc => 0x20#8
  | .rxType => 0x21#8
  | .rxId => 0x22#8
  | .rxPay j => BitVec.ofNat 8 (0x23 + j.val)
  | .rxpRes => 0x2C#8
  | .rptId => 0x2D#8
  | .rptRssi => 0x2E#8
  | .rptLen => 0x2F#8
  | .rptText k => BitVec.ofNat 8 (0x30 + k.val)
  | .rptAux k => BitVec.ofNat 8 (0x35 + k.val)
  | .rptDecl => 0x38#8

/-- The mapped registers in address order, 0x00 first (the table of R20). -/
def Reg.map : List Reg :=
  (List.finRange 12).map Reg.fb ++
  ([Reg.cmd, Reg.status, Reg.cyc, Reg.seqOut, Reg.txCyc, Reg.txType, Reg.txId, Reg.txPlen] ++
  ((List.finRange 9).map Reg.txPay ++
  ([Reg.accIn, Reg.rssiLo, Reg.rssiHi, Reg.rxCyc, Reg.rxType, Reg.rxId] ++
  ((List.finRange 9).map Reg.rxPay ++
  ([Reg.rxpRes, Reg.rptId, Reg.rptRssi, Reg.rptLen] ++
  ((List.finRange 5).map Reg.rptText ++
  ((List.finRange 3).map Reg.rptAux ++
  [Reg.rptDecl])))))))

/-- The register at an address; none at the reserved addresses 0x39–0xFF (R20, R51). -/
def Reg.ofAddr (a : Byte) : Option Reg := Reg.map[a.toNat]?

/-- The access rights of a register (the table of R20). -/
def Reg.kind : Reg → RegKind
  | .fb _ => .rw
  | .cmd => .wo
  | .status => .ro
  | .cyc => .ro
  | .seqOut => .ro
  | .txCyc => .rw
  | .txType => .rw
  | .txId => .rw
  | .txPlen => .rw
  | .txPay _ => .rw
  | .accIn => .rw
  | .rssiLo => .rw
  | .rssiHi => .rw
  | .rxCyc => .ro
  | .rxType => .ro
  | .rxId => .ro
  | .rxPay _ => .ro
  | .rxpRes => .ro
  | .rptId => .ro
  | .rptRssi => .ro
  | .rptLen => .ro
  | .rptText _ => .ro
  | .rptAux _ => .ro
  | .rptDecl => .ro

end Sys2Proof
end

