-- ==== Sys2Proof/Machine/State.lean ====
section
/-! DEFINITION. The state of FRMCODEC (the registers of spec/10_state.md R20, all of them and nothing else of the
block's), beside it the model's own fields for the parameters and for the host at the port, and the state after reset (R181). -/

namespace Sys2Proof.Machine

/-- A Frame (R10): the typed structure of the codec. The TX registers hold one for ENC, the RX registers hold one after DEC. -/
structure Frame where
  /-- TX_CYC (0x10) or RX_CYC (0x20). -/
  cycle : Byte
  /-- TX_TYPE (0x11) or RX_TYPE (0x21). -/
  messageType : Byte
  /-- TX_ID (0x12) or RX_ID (0x22). -/
  peripheralId : Byte
  /-- TX_PAY[0..8] (0x14–0x1C) or RX_PAY[0..8] (0x23–0x2B). -/
  payload : Vector Byte 9
deriving DecidableEq, Repr

/-- The report registers RPT_* (R41–R44). -/
structure ReportRegs where
  /-- RPT_ID (0x2D). -/
  id : Byte
  /-- RPT_RSSI (0x2E). -/
  rssi : Byte
  /-- RPT_LEN (0x2F). -/
  len : Byte
  /-- RPT_TEXT[0..4] (0x30–0x34). -/
  text : Vector Byte 5
  /-- RPT_AUX[0..2] (0x35–0x37). -/
  aux : Vector Byte 3
  /-- RPT_DECL (0x38). -/
  decl : Byte
deriving DecidableEq, Repr

/-- A PeripheralReport (R10), as the host takes it from the RPT registers. -/
structure PeripheralReport where
  peripheralId : Byte
  rssiMagnitude : Byte
  /-- 0 to 5 octets. -/
  sensorText : List Byte
deriving DecidableEq, Repr

/-- What the host does to the block next: one transaction on the port (R7), or the reset of R180. -/
inductive HostEvent where
  /-- A transaction, given by its word (R77). -/
  | transaction (w : TxWord)
  /-- The block's one reset is asserted (R180). -/
  | reset
deriving DecidableEq, Repr

/-- The machine. The first twelve fields are the registers of R20; CMD stores nothing (R22). The last three are the
model's own. -/
structure State where
  /-- FB[0..11] (0x00–0x0B, RW), the one frame buffer (R21). -/
  fb : Vector Byte 12
  /-- STATUS (0x0D, RO), eight flag bits (R23–R31). -/
  status : Byte
  /-- CYC (0x0E, RO), the cycle register (R32). -/
  cyc : Byte
  /-- SEQ_OUT (0x0F, RO) (R33). -/
  seqOut : Byte
  /-- TX_CYC, TX_TYPE, TX_ID and TX_PAY (0x10–0x12, 0x14–0x1C, RW), the encoder's input (R34, R36). -/
  tx : Frame
  /-- TX_PLEN (0x13, RW), the encoder's payload length (R35). -/
  txPlen : Byte
  /-- ACC_IN (0x1D, RW), the candidate of ACC (R37). -/
  accIn : Byte
  /-- RSSI_LO (0x1E, RW), bits 7..0 of the packet RSSI (R38). -/
  rssiLo : Byte
  /-- RSSI_HI (0x1F, RW), bits 15..8 of the packet RSSI (R38). -/
  rssiHi : Byte
  /-- RX_CYC, RX_TYPE, RX_ID and RX_PAY (0x20–0x2B, RO), the frame last decoded (R39). -/
  rx : Frame
  /-- RXP_RES (0x2C, RO), the outcome of the last RXP (R40). -/
  rxpRes : Byte
  /-- RPT_* (0x2D–0x38, RO), the report registers (R41–R44). -/
  rpt : ReportRegs
  /-- MODEL'S OWN: the build-time parameters (R5, R6), which no step changes (DESIGN CHOICE, safe: notes/assumptions/4). -/
  params : Params
  /-- MODEL'S OWN: what the host does to the block from here on, the next event first. It is the environment's schedule,
  no queue of the hardware (R61) (DESIGN CHOICE, safe: notes/assumptions/1). -/
  port : List HostEvent
  /-- MODEL'S OWN: the octet the last RD since reset returned to the host (R100), none if there was none (DESIGN CHOICE,
  unsafe: notes/assumptions/2). -/
  readData : Option Byte
deriving DecidableEq, Repr

/-- Why the machine could stop with a fault. It has no constructor: nobody raises one, since no block condition is a fault
or a stuck state and every command completes (R150, R159). Safe: nothing is stopped that the block would run (DEDUCED:
notes/assumptions/12). -/
inductive Fault
deriving DecidableEq, Repr

/-- Why the machine could refuse an instruction. -/
inductive Refusal where
  /-- An instruction of spec/opcode_table.json with no meaning in the model. Raised by no arm of exec: every row has its
  meaning. It would be safe, for it stops where the block goes on. -/
  | notModelled (mnemonic : String)
deriving DecidableEq, Repr

/-- A Frame of zero octets. -/
def Frame.zero : Frame :=
  { cycle := 0x00#8, messageType := 0x00#8, peripheralId := 0x00#8, payload := Vector.replicate 9 0x00#8 }

/-- The report registers all 0x00 (R135, R181). -/
def ReportRegs.zero : ReportRegs :=
  { id := 0x00#8, rssi := 0x00#8, len := 0x00#8, text := Vector.replicate 5 0x00#8,
    aux := Vector.replicate 3 0x00#8, decl := 0x00#8 }

/-- The state after reset of a block with parameters `p`: CYC holds CYC_RESET and every other register 0x00 (R181). The
host has issued nothing yet and has read nothing. -/
def State.resetWith (p : Params) : State :=
  { fb := Vector.replicate 12 0x00#8
    status := 0x00#8
    cyc := p.cycReset
    seqOut := 0x00#8
    tx := Frame.zero
    txPlen := 0x00#8
    accIn := 0x00#8
    rssiLo := 0x00#8
    rssiHi := 0x00#8
    rx := Frame.zero
    rxpRes := 0x00#8
    rpt := ReportRegs.zero
    params := p
    port := []
    readData := none }

/-- The state of this hardware after reset (R180, R181). -/
def State.reset : State := State.resetWith Config.hardware

end Sys2Proof.Machine
end

