-- ==== Sys2Proof/Machine/Flags.lean ====
section
/-! DEFINITION. The eight bits of STATUS (spec/10_state.md R23–R31), and reading and writing one of them. -/

namespace Sys2Proof.Machine

/-- The bits of STATUS by name (R23). -/
inductive Flag where
  /-- The result of the last ENC (R24). -/
  | encErr
  /-- The RX registers were loaded since reset (R25). -/
  | decValid
  /-- The result of the last duplicate check (R26). -/
  | accNew
  /-- The RPT registers hold a report (R27). -/
  | rptValid
  /-- The last RPT or RXP met a frame that is no report (R28). -/
  | typeErr
  /-- The sensor text was cut to TEXT_CAP octets (R29). -/
  | lenClamp
  /-- The last RPT had no decoded frame (R30). -/
  | noData
  /-- A reserved value was written to CMD (R31). -/
  | illCmd
deriving DecidableEq, Repr

/-- The bit number of a flag in STATUS (R23). -/
def Flag.bit : Flag → Nat
  | .encErr => 0
  | .decValid => 1
  | .accNew => 2
  | .rptValid => 3
  | .typeErr => 4
  | .lenClamp => 5
  | .noData => 6
  | .illCmd => 7

/-- The octet with the flag's bit alone set. -/
def Flag.mask (f : Flag) : Byte := 1#8 <<< f.bit

/-- `STATUS.F` of a STATUS octet (R9). -/
def statusGet (st : Byte) (f : Flag) : Bool := st.getLsbD f.bit

/-- `STATUS.F <- b`: only that bit is written (R9). -/
def statusSet (st : Byte) (f : Flag) (b : Bool) : Byte :=
  if b then st ||| f.mask else st &&& ~~~f.mask

/-- `STATUS.F` of the machine. -/
def State.flag (s : State) (f : Flag) : Bool := statusGet s.status f

/-- `STATUS.F <- b` on the machine. -/
def State.setFlag (s : State) (f : Flag) (b : Bool) : State :=
  { s with status := statusSet s.status f b }

end Sys2Proof.Machine
end

