-- ==== Sys2Proof/Machine/Operands.lean ====
section
/-! DEFINITION. Operand assembly (spec/30_encoding.md R79): the contents of a register by its name, and the one operand made of
two registers, the signed RSSI value (spec/20_memory.md R57). -/

namespace Sys2Proof.Machine

/-- The contents of a register (R20). CMD stores nothing and reads as 0x00 (R22). -/
def State.reg (s : State) : Reg → Byte
  | .fb i => s.fb[i]
  | .cmd => 0x00#8
  | .status => s.status
  | .cyc => s.cyc
  | .seqOut => s.seqOut
  | .txCyc => s.tx.cycle
  | .txType => s.tx.messageType
  | .txId => s.tx.peripheralId
  | .txPlen => s.txPlen
  | .txPay j => s.tx.payload[j]
  | .accIn => s.accIn
  | .rssiLo => s.rssiLo
  | .rssiHi => s.rssiHi
  | .rxCyc => s.rx.cycle
  | .rxType => s.rx.messageType
  | .rxId => s.rx.peripheralId
  | .rxPay j => s.rx.payload[j]
  | .rxpRes => s.rxpRes
  | .rptId => s.rpt.id
  | .rptRssi => s.rpt.rssi
  | .rptLen => s.rpt.len
  | .rptText k => s.rpt.text[k]
  | .rptAux k => s.rpt.aux[k]
  | .rptDecl => s.rpt.decl

/-- `sext_16(RSSI_HI : RSSI_LO)` as a signed integer, RSSI_LO the low octet (R57). -/
def State.rssiValue (s : State) : Int := (s.rssiHi ++ s.rssiLo).toInt

/-- The decoded frame is a RESPONSE_REPORT: `RX_TYPE == MT_RESPONSE_REPORT` (R130). -/
def State.isResponse (s : State) : Bool := s.rx.messageType == s.params.mtResponseReport

/-- The PeripheralReport the RPT registers hold (R10, R139): one while STATUS.RPT_VALID is 1, its text the octets
RPT_TEXT[0..RPT_LEN-1]. -/
def State.peripheralReport (s : State) : Option PeripheralReport :=
  if s.flag .rptValid then
    some { peripheralId := s.rpt.id, rssiMagnitude := s.rpt.rssi, sensorText := s.rpt.text.toList.take s.rpt.len.toNat }
  else none

end Sys2Proof.Machine
end

