-- ==== Sys2Proof/Machine/Ops.lean ====
section
/-! DEFINITION. The operations the meanings share: reading and storing a register through the port, recording an error
(`raise`, the block's only reaction to one: it has no traps, spec/60_exceptions.md R150, R156), the start every defined
command makes, and reset (spec/70_reset_and_hazards.md R180). -/

namespace Sys2Proof.Machine

/-- `reg[NAME] <- v` for the registers the host may write (RW in R20); on any other register it changes nothing (R53). -/
def State.setReg (s : State) (r : Reg) (v : Byte) : State :=
  match r with
  | .fb i => { s with fb := s.fb.set i v }
  | .txCyc => { s with tx := { s.tx with cycle := v } }
  | .txType => { s with tx := { s.tx with messageType := v } }
  | .txId => { s with tx := { s.tx with peripheralId := v } }
  | .txPlen => { s with txPlen := v }
  | .txPay j => { s with tx := { s.tx with payload := s.tx.payload.set j v } }
  | .accIn => { s with accIn := v }
  | .rssiLo => { s with rssiLo := v }
  | .rssiHi => { s with rssiHi := v }
  | .cmd => s
  | .status => s
  | .cyc => s
  | .seqOut => s
  | .rxCyc => s
  | .rxType => s
  | .rxId => s
  | .rxPay _ => s
  | .rxpRes => s
  | .rptId => s
  | .rptRssi => s
  | .rptLen => s
  | .rptText _ => s
  | .rptAux _ => s
  | .rptDecl => s

/-- `MemRead(a, 1)`: what a read of address `a` returns (R100). CMD and the reserved addresses return 0x00 (R52, R53). -/
def State.portRead (s : State) (a : Byte) : Byte :=
  match Reg.ofAddr a with
  | none => 0x00#8
  | some r =>
    match r.kind with
    | .rw => s.reg r
    | .ro => s.reg r
    | .wo => 0x00#8

/-- `raise E`: the STATUS bit E is set and the command ends with no further effect (R9, R152). -/
def State.raise (s : State) (f : Flag) : State := s.setFlag f true

/-- What every command with a defined value does first: STATUS.ILL_CMD <- 0 (R104). -/
def State.beginCommand (s : State) : State := s.setFlag .illCmd false

/-- The block's one reset (R180): every register takes its reset value at once. The parameters are build-time (R183) and
what the host does afterwards is the host's, so both stay (DESIGN CHOICE, safe: notes/assumptions/7). -/
def State.afterReset (s : State) : State := { State.resetWith s.params with port := s.port }

end Sys2Proof.Machine
end

