-- ==== Sys2Proof/Machine/CycleSequencer.lean ====
section
/-! DEFINITION. The Cycle Sequencer (spec/42_cycle_sequencer.md): NXT, ACC, and the duplicate check RXP shares with ACC. -/

namespace Sys2Proof.Machine

/-- `accept_if_new(cand, last)`: new exactly when different, with no window, history or ordering (R123, R124). -/
def acceptIfNew (cand last : Byte) : Bool × Byte :=
  if cand ≠ last then (true, cand) else (false, last)

/-- The duplicate check on CYC: CYC and STATUS.ACC_NEW take its two results (R26, R122, R137). -/
def State.dedup (s : State) (cand : Byte) : State :=
  ({ s with cyc := (acceptIfNew cand s.cyc).2 }).setFlag .accNew (acceptIfNew cand s.cyc).1

/-- The effect of NXT (R120). -/
def nxtCommand (s₀ : State) : State :=
  let s := s₀.beginCommand
  let n := s.cyc + 1#8
  { s with cyc := n, seqOut := n }

/-- The effect of ACC (R122). -/
def accCommand (s₀ : State) : State :=
  let s := s₀.beginCommand
  s.dedup s.accIn

/-- NXT, command 0x03 (R120). -/
def execNxt (s : State) : Host.Outcome State Fault Refusal := .next (nxtCommand s)

/-- ACC, command 0x04 (R122). -/
def execAcc (s : State) : Host.Outcome State Fault Refusal := .next (accCommand s)

end Sys2Proof.Machine
end

