-- ==== Sys2Proof/Machine/FrameCodec.lean ====
section
/-! DEFINITION. The Frame Codec (spec/41_frame_codec.md): ENC and DEC. -/

namespace Sys2Proof.Machine

/-- `encode_frame(c, t, p, n, P)`: the wire image, the payload padded with 0x00 beyond its `n` octets (R111;
the pad value is the spec's own, D13: notes/assumptions/13). -/
def encodeFrame (c t p : Byte) (n : Nat) (P : Vector Byte 9) : Vector Byte 12 :=
  Vector.ofFn fun i : Fin 12 =>
    if i.val = 0 then c
    else if i.val = 1 then t
    else if i.val = 2 then p
    else if i.val - 3 < n then P[i.val - 3]
    else 0x00#8

/-- `decode_frame(W)`: purely positional and total (R113). -/
def decodeFrame (W : Vector Byte 12) : Frame :=
  { cycle := W[0]
    messageType := W[1]
    peripheralId := W[2]
    payload := Vector.ofFn fun j : Fin 9 => W[3 + j.val] }

/-- The RX registers take the frame decoded from FB, all twelve together, and STATUS.DEC_VALID is set (R39, R112). -/
def State.loadRx (s : State) : State :=
  ({ s with rx := decodeFrame s.fb }).setFlag .decValid true

/-- The effect of ENC (R110). -/
def encCommand (s₀ : State) : State :=
  let s := s₀.beginCommand
  if s.txPlen.toNat > payloadCap then s.raise .encErr
  else
    let s := s.setFlag .encErr false
    { s with fb := encodeFrame s.tx.cycle s.tx.messageType s.tx.peripheralId s.txPlen.toNat s.tx.payload }

/-- The effect of DEC (R112). -/
def decCommand (s : State) : State := s.beginCommand.loadRx

/-- ENC, command 0x01 (R110). -/
def execEnc (s : State) : Host.Outcome State Fault Refusal := .next (encCommand s)

/-- DEC, command 0x02 (R112). -/
def execDec (s : State) : Host.Outcome State Fault Refusal := .next (decCommand s)

end Sys2Proof.Machine
end

