-- ==== Sys2Proof/Machine/ReportDecoder.lean ====
section
/-! DEFINITION. The Report Decoder and the receive validator (spec/43_report_extractor.md): RPT and RXP. -/

namespace Sys2Proof.Machine

/-- The number of text octets a declared length asks for, before the cut (R132). -/
def rawTextCount (conv : LenConv) (L : Byte) : Nat :=
  match conv with
  | .exact => L.toNat
  | .inclusive => if L = 0x00#8 then 0 else L.toNat - 1

/-- `text_count(L)`: the number of sensor-text octets, cut to TEXT_CAP, and whether it was cut (R132). -/
def textCount (conv : LenConv) (L : Byte) : Nat × Bool :=
  (min (rawTextCount conv L) textCap, decide (rawTextCount conv L > textCap))

/-- `rssi_mag(v)`: the magnitude of the RSSI, saturated at 255 (R133). -/
def rssiMag (v : Int) : Byte := BitVec.ofNat 8 (min v.natAbs 255)

/-- `clear_report()`: the report registers and the four report bits of STATUS become 0 (R135). -/
def State.clearReport (s : State) : State :=
  ((((({ s with rpt := ReportRegs.zero }).setFlag .rptValid false).setFlag .typeErr false).setFlag .lenClamp false).setFlag
    .noData false)

/-- `build_report()`: the report registers take the report of the frame in RX and of the RSSI (R134). RPT_TEXT keeps what it
holds beyond the text: 0x00, from the clear_report before it. -/
def State.buildReport (s : State) : State :=
  let L := s.rx.payload[3]
  let n := (textCount s.params.lenConv L).1
  let clamp := (textCount s.params.lenConv L).2
  (({ s with rpt :=
      { id := s.rx.peripheralId
        rssi := rssiMag s.rssiValue
        len := BitVec.ofNat 8 n
        text := Vector.ofFn fun k : Fin 5 => if k.val < n then s.rx.payload[4 + k.val] else s.rpt.text[k]
        aux := Vector.ofFn fun k : Fin 3 => s.rx.payload[k.val]
        decl := L } }).setFlag .lenClamp clamp).setFlag .rptValid true

/-- The effect of RPT (R136): NODATA before TYPE_ERR, and no duplicate check. -/
def rptCommand (s₀ : State) : State :=
  let s := s₀.beginCommand.clearReport
  if s.flag .decValid = false then s.raise .noData
  else if s.isResponse = false then s.raise .typeErr
  else s.buildReport

/-- The outcome of RXP, recorded in RXP_RES (R40). -/
def State.setRxpRes (s : State) (code : Byte) : State := { s with rxpRes := code }

/-- RXP ends with the outcome BADTYPE (R137). -/
def State.badType (s : State) : State := (s.setRxpRes 0x03#8).raise .typeErr

/-- RXP from its duplicate check on (R137): a duplicate ends it, then the type check, then the report. -/
def State.validate (s₀ : State) : State :=
  let s := s₀.dedup s₀.rx.cycle
  if s.flag .accNew = false then s.setRxpRes 0x02#8
  else if s.isResponse = false then s.badType
  else s.buildReport.setRxpRes 0x01#8

/-- The effect of RXP (R137): decode, then the checks in the order RXP_ORDER gives, then the report. -/
def rxpCommand (s₀ : State) : State :=
  let s := s₀.beginCommand.loadRx.clearReport
  match s.params.rxpOrder with
  | .typeFirst => if s.isResponse = false then s.badType else s.validate
  | .dedupFirst => s.validate

/-- RPT, command 0x05 (R136). -/
def execRpt (s : State) : Host.Outcome State Fault Refusal := .next (rptCommand s)

/-- RXP, command 0x06 (R137). -/
def execRxp (s : State) : Host.Outcome State Fault Refusal := .next (rxpCommand s)

end Sys2Proof.Machine
end

