-- ==== Sys2Proof/Machine/HostPort.lean ====
section
/-! DEFINITION. The host port (spec/40_bus_command.md): RD, WR, the generic commands NOP and RESERVED_CMD, and the dispatch a
write to CMD makes. -/

namespace Sys2Proof.Machine

/-- The effect of NOP (R102). -/
def nopCommand (s : State) : State := s.beginCommand

/-- The effect of a reserved command value (R103): ILL_CMD is recorded and the value is not kept (R151). -/
def reservedCommand (_v : Byte) (s : State) : State := s.raise .illCmd

/-- `perform_command(v)` (R104, R75, R76). -/
def performCommand (v : Byte) (s : State) : State :=
  match v.toNat with
  | 0x00 => nopCommand s
  | 0x01 => encCommand s
  | 0x02 => decCommand s
  | 0x03 => nxtCommand s
  | 0x04 => accCommand s
  | 0x05 => rptCommand s
  | 0x06 => rxpCommand s
  | _ => reservedCommand v s

/-- `MemWrite(a, 1, v)` (R101): a RW register is stored, a write to CMD performs a command, and a write to a RO register or
to a reserved address is ignored (R52, R53). -/
def State.portWrite (s : State) (a v : Byte) : State :=
  match Reg.ofAddr a with
  | none => s
  | some r =>
    match r.kind with
    | .rw => s.setReg r v
    | .wo => performCommand v s
    | .ro => s

/-- RD (R100): the value goes to the host and no register changes. -/
def execRd (a : Byte) (s : State) : Host.Outcome State Fault Refusal :=
  .next { s with readData := some (s.portRead a) }

/-- WR (R101). -/
def execWr (a v : Byte) (s : State) : Host.Outcome State Fault Refusal := .next (s.portWrite a v)

/-- NOP, command 0x00 (R102). -/
def execNop (s : State) : Host.Outcome State Fault Refusal := .next (nopCommand s)

/-- RESERVED_CMD, command values 0x07–0xFF (R103). -/
def execReservedCmd (v : Byte) (s : State) : Host.Outcome State Fault Refusal := .next (reservedCommand v s)

end Sys2Proof.Machine
end

