-- ==== Sys2Proof/Machine/Dispatch.lean ====
section
/-! DEFINITION. The dispatch of an instruction to its meaning: one arm per constructor of Instr. -/

namespace Sys2Proof.Machine

def exec (i : Instr) (s : State) : Host.Outcome State Fault Refusal :=
  match i with
  | .rd a => Sys2Proof.Machine.execRd a s
  | .wr a v => Sys2Proof.Machine.execWr a v s
  | .nop => Sys2Proof.Machine.execNop s
  | .enc => Sys2Proof.Machine.execEnc s
  | .dec => Sys2Proof.Machine.execDec s
  | .nxt => Sys2Proof.Machine.execNxt s
  | .acc => Sys2Proof.Machine.execAcc s
  | .rpt => Sys2Proof.Machine.execRpt s
  | .rxp => Sys2Proof.Machine.execRxp s
  | .reservedCmd v => Sys2Proof.Machine.execReservedCmd v s

end Sys2Proof.Machine
end

