-- ==== Sys2Proof/Machine/Step.lean ====
section
/-! DEFINITION. One step of the block: the host's next event, a transaction or the reset (spec/00_scope.md R7,
spec/70_reset_and_hazards.md R180). -/

namespace Sys2Proof.Machine

/-- One step takes the host's next event. A transaction is decoded and performed completely (R7, R54); the reset puts every
register into its reset value (R180); with no event the host issues nothing and the state stays as it is (R191; DEDUCED, safe:
notes/assumptions/3). -/
def step (s : State) : Host.Outcome State Fault Refusal :=
  match s.port with
  | [] => .next s
  | .transaction w :: rest => exec (decode w) { s with port := rest }
  | .reset :: rest => .next (State.afterReset { s with port := rest })

/-- The state in which the host's next event is the transaction of word `w` (cut to `nbits`), before whatever it was about
to do. A number beyond 17 bits is no transaction word, and nothing is put at the port (DESIGN CHOICE, safe:
notes/assumptions/11). -/
def State.withFetchWord (s : State) (nbits w : Nat) : State :=
  if w % 2 ^ nbits < 2 ^ 17 then
    { s with port := .transaction (BitVec.ofNat 17 (w % 2 ^ nbits)) :: s.port }
  else s

end Sys2Proof.Machine
end

