-- ==== Sys2Proof/Machine/HostProtocol.lean ====
section
/-! DEFINITION. The host of spec/60_exceptions.md section 4 (R160–R166): the polling controller as a machine of its own that drives
the block through RD and WR alone. It is the environment, not the block: no step of the block depends on this file (DESIGN
CHOICE: notes/assumptions/16). -/

namespace Sys2Proof.Machine

/-- Instructions one after the other, as the host issues them; the first stop ends them. -/
def execAll : List Instr → State → Host.Outcome State Fault Refusal
  | [], s => .next s
  | i :: is, s =>
    match exec i s with
    | .next t => execAll is t
    | .fault r => .fault r
    | .refused r => .refused r

/-- Reads of the addresses in order, and what they return to the host. -/
def readAll : List Byte → State → Host.Outcome (State × List Byte) Fault Refusal
  | [], s => .next (s, [])
  | a :: as, s =>
    match exec (.rd a) s with
    | .next t =>
      match readAll as t with
      | .next (u, vs) => .next (u, t.readData.toList ++ vs)
      | .fault r => .fault r
      | .refused r => .refused r
    | .fault r => .fault r
    | .refused r => .refused r

/-- The host's states (R160). -/
inductive HostStatus where
  | initializing
  | idle
  | requestingReport
  /-- Still RequestingReport: the frame read from FB waits for the Channel Sense Gate to open (R161 step 4, R164). -/
  | sensingChannel (frame : List Byte)
  | listeningForResponse
  /-- Declared, and never reached by any transition (R160). -/
  | reportTimedOut
  /-- The radio failed to initialize: the controller halts indefinitely (R165). -/
  | halted
deriving DecidableEq, Repr

/-- How one call of the radio's `receive` ends (R162). A success brings a packet of exactly 12 octets (R163) and its RSSI. -/
inductive RxOutcome where
  | success (packet : Vector Byte 12) (rssi : BitVec 16)
  | rxTimeout
  | crcMismatch
  | otherError
deriving DecidableEq, Repr

/-- What the host's surroundings, or its own choice, bring next. No input resets or reinitializes the controller or its block (DESIGN
CHOICE, unsafe: notes/assumptions/19). -/
inductive HostInput where
  /-- The radio reports whether its bring-up succeeded. -/
  | bringUp (ok : Bool)
  /-- Nothing: an unconditional transition is taken. -/
  | proceed
  /-- The payload the host chooses for its next request (R161 step 2). -/
  | request (plen : Byte) (payload : Vector Byte 9)
  /-- One sample of the instantaneous RSSI (R164). That it is a whole number of dBm is the model's choice (DESIGN CHOICE, unsafe:
  notes/assumptions/18). -/
  | sample (rssi : Int)
  /-- The end of one receive (R162). -/
  | received (o : RxOutcome)
deriving DecidableEq, Repr

/-- The controller: the host, the block it drives, and what it has given the radio and the Diagnostics Sink. -/
structure Controller where
  status : HostStatus
  block : State
  /-- The injected target (R161). -/
  target : Byte
  /-- The Channel Sense Gate's threshold (R164), a whole number of dBm like the samples (DESIGN CHOICE, unsafe: notes/assumptions/18). -/
  thresholdDbm : Int
  /-- The frames given to the radio, oldest first. -/
  sent : List (List Byte)
  /-- The reports given to the Diagnostics Sink, oldest first (R166). -/
  reports : List PeripheralReport
deriving DecidableEq, Repr

/-- The controller at its cold start, with a block of parameters `p` just reset (R180), its one start in the model
(notes/assumptions/19). -/
def Controller.coldStart (p : Params) (target : Byte) (thresholdDbm : Int) : Controller :=
  { status := .initializing, block := State.resetWith p, target, thresholdDbm, sent := [], reports := [] }

/-- The addresses FB0 to FB11, in index order. -/
def fbAddrs : List Byte := (List.finRange 12).map fun i => (Reg.fb i).addr

/-- The addresses of RPT_ID, RPT_RSSI, RPT_LEN and RPT_TEXT, in that order (R162). -/
def reportAddrs : List Byte :=
  [Reg.rptId.addr, Reg.rptRssi.addr, Reg.rptLen.addr] ++ (List.finRange 5).map fun k => (Reg.rptText k).addr

/-- R161 steps 2 and 3 without the reads, for the cycle id `c` the host read from SEQ_OUT. -/
def requestInstrs (p : Params) (c target plen : Byte) (payload : Vector Byte 9) : List Instr :=
  [.wr Reg.txCyc.addr c, .wr Reg.txType.addr p.mtRequestReport, .wr Reg.txId.addr target, .wr Reg.txPlen.addr plen] ++
  ((List.finRange 9).map fun j => .wr (Reg.txPay j).addr payload[j]) ++ [.enc]

/-- R162 on success, up to the command: the twelve octets, the packet RSSI, RXP. -/
def receiveInstrs (packet : Vector Byte 12) (rssi : BitVec 16) : List Instr :=
  ((List.finRange 12).map fun i => .wr (Reg.fb i).addr packet[i]) ++
  [.wr Reg.rssiLo.addr (rssi.extractLsb' 0 8), .wr Reg.rssiHi.addr (rssi.extractLsb' 8 8), .rxp]

/-- The report the host makes of what it read at `reportAddrs`: the id, the magnitude, and the first RPT_LEN text octets. -/
def reportOfReads : List Byte → Option PeripheralReport
  | id :: rssi :: len :: text => some { peripheralId := id, rssiMagnitude := rssi, sensorText := text.take len.toNat }
  | _ => none

/-- Steps 1 to 3 of R161: NXT, read SEQ_OUT, write the frame's fields, ENC, read FB. The octets read are the frame to send. -/
def buildRequest (target plen : Byte) (payload : Vector Byte 9) (s : State) :
    Host.Outcome (State × List Byte) Fault Refusal :=
  match execAll [.nxt, .rd Reg.seqOut.addr] s with
  | .fault r => .fault r
  | .refused r => .refused r
  | .next m =>
    match execAll (requestInstrs s.params (m.readData.getD 0x00#8) target plen payload) m with
    | .fault r => .fault r
    | .refused r => .refused r
    | .next t => readAll fbAddrs t

/-- R162 on success: the writes and RXP, then RXP_RES is read, and after the outcome REPORT the report too. R162 leaves the host the
choice between this path and `dec`; `rd RX_CYC`; `wr ACC_IN`; `acc`; `rpt`: that the controller always takes RXP, and the manual
path is left out of it, is the model's (DESIGN CHOICE, unsafe: notes/assumptions/16). -/
def takePacket (packet : Vector Byte 12) (rssi : BitVec 16) (s : State) :
    Host.Outcome (State × Option PeripheralReport) Fault Refusal :=
  match execAll (receiveInstrs packet rssi ++ [.rd Reg.rxpRes.addr]) s with
  | .fault r => .fault r
  | .refused r => .refused r
  | .next t =>
    if t.readData = some 0x01#8 then
      match readAll reportAddrs t with
      | .fault r => .fault r
      | .refused r => .refused r
      | .next (u, vs) => .next (u, reportOfReads vs)
    else .next (t, none)

/-- One step of the controller (R160–R165). Whether a transmission succeeds makes no difference (R161 step 4). In a state that
waits for something else, an input changes nothing (DESIGN CHOICE, unsafe: notes/assumptions/16). The cold start is the only start:
no step goes back to it, and none resets the block (DESIGN CHOICE, unsafe: notes/assumptions/19). -/
def controllerStep (e : HostInput) (c : Controller) : Host.Outcome Controller Fault Refusal :=
  match c.status, e with
  | .initializing, .bringUp ok => .next { c with status := if ok then .idle else .halted }
  | .idle, .proceed => .next { c with status := .requestingReport }
  | .requestingReport, .request plen payload =>
    match buildRequest c.target plen payload c.block with
    | .fault r => .fault r
    | .refused r => .refused r
    | .next (t, frame) => .next { c with status := .sensingChannel frame, block := t }
  | .sensingChannel frame, .sample rssi =>
    if rssi > c.thresholdDbm then .next c
    else .next { c with status := .listeningForResponse, sent := c.sent ++ [frame] }
  | .listeningForResponse, .received (.success packet rssi) =>
    match takePacket packet rssi c.block with
    | .fault r => .fault r
    | .refused r => .refused r
    | .next (t, some p) => .next { c with status := .requestingReport, block := t, reports := c.reports ++ [p] }
    | .next (t, none) => .next { c with block := t }
  | _, _ => .next c

end Sys2Proof.Machine
end

