-- ==== Sys2Proof/Safety.lean ====
section
/-! DEFINITION. What claims about FRMCODEC are stated in: a step or an instruction completes, two states agree outside named
addresses, and the coherence of the registers that reset establishes and every step keeps. -/

namespace Sys2Proof.Machine

/-- The outcome is a next state: neither a fault nor a refusal. -/
def Completes (o : Host.Outcome State Fault Refusal) : Prop := ∃ t, o = .next t

/-- Every address not in `changed` reads in `t` as it read in `s`. Every register but CMD, which holds nothing, is readable
(R20), so this says that no other register changed. -/
def SameRegsExcept (changed : List Byte) (s t : State) : Prop :=
  ∀ a : Byte, a ∉ changed → t.portRead a = s.portRead a

/-- The fields that are the model's own are the same in both states: the parameters, the host's schedule, and the value the
host last read. -/
def SameEnvironment (s t : State) : Prop :=
  t.params = s.params ∧ t.port = s.port ∧ t.readData = s.readData

/-- `f` is the frame at the octets `W`, field by field (R70, R113). -/
def FrameAt (W : Vector Byte 12) (f : Frame) : Prop :=
  f.cycle = W[0] ∧ f.messageType = W[1] ∧ f.peripheralId = W[2] ∧ ∀ j : Fin 9, f.payload[j] = W[3 + j.val]

/-- The text octets the declared length `L` asks for, on unbounded naturals (R132): L, or L - 1 with 0 for L = 0. -/
def wantedText (conv : LenConv) (L : Byte) : Nat :=
  match conv with
  | .exact => L.toNat
  | .inclusive => L.toNat - 1

/-- `r` is the report of the frame `f` and the packet RSSI `hi : lo`, and `clamp` says whether its text was cut, field by
field (R132–R134). -/
def IsReport (conv : LenConv) (f : Frame) (hi lo : Byte) (r : ReportRegs) (clamp : Bool) : Prop :=
  r.id = f.peripheralId ∧
  r.rssi.toNat = min (hi ++ lo).toInt.natAbs 255 ∧
  r.decl = f.payload[3] ∧
  r.len.toNat = min (wantedText conv f.payload[3]) 5 ∧
  (∀ k : Fin 5, r.text[k] = if k.val < wantedText conv f.payload[3] then f.payload[4 + k.val] else 0x00#8) ∧
  (∀ k : Fin 3, r.aux[k] = f.payload[k.val]) ∧
  clamp = decide (5 < wantedText conv f.payload[3])

/-- Report registers that all read 0x00, field by field (R135). -/
def NoReport (r : ReportRegs) : Prop :=
  r.id = 0x00#8 ∧ r.rssi = 0x00#8 ∧ r.len = 0x00#8 ∧ (∀ k : Fin 5, r.text[k] = 0x00#8) ∧
  (∀ k : Fin 3, r.aux[k] = 0x00#8) ∧ r.decl = 0x00#8

/-- What the registers say of each other in every state a run from reset reaches. -/
structure Coherent (s : State) : Prop where
  /-- The parameters meet R5's constraints. -/
  params_wf : s.params.wf = true
  /-- RXP_RES holds one of its four codes (R40). -/
  rxpRes_code : s.rxpRes.toNat ≤ 0x03
  /-- Without a report every report register reads 0x00 (R135). -/
  no_report_zero : s.flag .rptValid = false → s.rpt = ReportRegs.zero
  /-- With a report, RPT_LEN and LEN_CLAMP are what the declared length RPT_DECL gives (R132, R134). -/
  report_count : s.flag .rptValid = true →
    s.rpt.len.toNat = (textCount s.params.lenConv s.rpt.decl).1 ∧
    s.flag .lenClamp = (textCount s.params.lenConv s.rpt.decl).2
  /-- RPT_LEN is at most TEXT_CAP (R42). -/
  len_le : s.rpt.len.toNat ≤ textCap
  /-- RPT_TEXT beyond RPT_LEN is 0x00 (R43). -/
  text_tail : ∀ k : Fin 5, s.rpt.len.toNat ≤ k.val → s.rpt.text[k] = 0x00#8
  /-- A report excludes both report errors (R27, R28, R30). -/
  report_no_error : s.flag .rptValid = true → s.flag .typeErr = false ∧ s.flag .noData = false
  /-- At most one of the two report errors is recorded (R153). -/
  one_error : s.flag .noData = true → s.flag .typeErr = false
  /-- LEN_CLAMP comes with a report (R29). -/
  clamp_report : s.flag .lenClamp = true → s.flag .rptValid = true
  /-- Before any DEC or RXP the RX registers hold their reset value, no RXP has an outcome, and there is neither a report nor
  a type error (R25, R39, R40, R136). -/
  nothing_decoded : s.flag .decValid = false →
    s.rx = Frame.zero ∧ s.rxpRes = 0x00#8 ∧ s.flag .rptValid = false ∧ s.flag .typeErr = false

end Sys2Proof.Machine
end

