-- ==== Sys2Proof/Certificates/Slice0/Obligations.lean ====
section
/-! DEFINITION. The statements for the provers, from the numbered rules of spec/. STATUS octets are written with the masks of
R23's layout: 0x01 ENC_ERR, 0x02 DEC_VALID, 0x04 ACC_NEW, 0x08 RPT_VALID, 0x10 TYPE_ERR, 0x20 LEN_CLAMP, 0x40 NODATA, 0x80
ILL_CMD. A next state written as an update of the state before says the frame too: every field not updated is unchanged. -/

open Sys2Proof Sys2Proof.Machine

/- Encodings (spec/30_encoding.md) -/

/-- Words written out from the spec's encodings decode to the instruction they stand for: R100's and R101's example words, the
command words of R75, two reserved command values, and a read with a non-zero D field. -/
def Obligations.WrittenWordsDecode : Prop :=
  decode 0x00E00#17 = .rd 0x0E#8 ∧ decode 0x00EFF#17 = .rd 0x0E#8 ∧ decode 0x112FF#17 = .wr 0x12#8 0xFF#8 ∧
  decode 0x10C00#17 = .nop ∧ decode 0x10C01#17 = .enc ∧ decode 0x10C02#17 = .dec ∧ decode 0x10C03#17 = .nxt ∧
  decode 0x10C04#17 = .acc ∧ decode 0x10C05#17 = .rpt ∧ decode 0x10C06#17 = .rxp ∧
  decode 0x10C07#17 = .reservedCmd 0x07#8 ∧ decode 0x10CFF#17 = .reservedCmd 0xFF#8

/-- R78 with the opcode map R75: every 17-bit word is one RD or one WR, the D field of a read is ignored, and a WR to CMD is the
command its data names. -/
def Obligations.EveryWordIsAReadOrAWrite : Prop :=
  ∀ w : TxWord,
    (w.toNat < 0x10000 → decode w = .rd (BitVec.ofNat 8 (w.toNat / 256))) ∧
    (0x10000 ≤ w.toNat → w.toNat / 256 ≠ 0x10C →
      decode w = .wr (BitVec.ofNat 8 (w.toNat / 256)) (BitVec.ofNat 8 w.toNat)) ∧
    (w.toNat / 256 = 0x10C →
      decode w =
        if w.toNat = 0x10C00 then .nop
        else if w.toNat = 0x10C01 then .enc
        else if w.toNat = 0x10C02 then .dec
        else if w.toNat = 0x10C03 then .nxt
        else if w.toNat = 0x10C04 then .acc
        else if w.toNat = 0x10C05 then .rpt
        else if w.toNat = 0x10C06 then .rxp
        else .reservedCmd (BitVec.ofNat 8 w.toNat))

/-- R77: the word of each instruction, as a number: `0x10000 | a << 8 | v` for a write, `a << 8` for a read, and for a command
the write of its value to CMD. -/
def Obligations.EncodedWordAsANumber : Prop :=
  (∀ a v : Byte, (encode (.wr a v)).toNat = 0x10000 + a.toNat * 256 + v.toNat) ∧
  (∀ a : Byte, (encode (.rd a)).toNat = a.toNat * 256) ∧
  (∀ v : Byte, (encode (.reservedCmd v)).toNat = 0x10C00 + v.toNat) ∧
  encode .nop = 0x10C00#17 ∧ encode .enc = 0x10C01#17 ∧ encode .dec = 0x10C02#17 ∧ encode .nxt = 0x10C03#17 ∧
  encode .acc = 0x10C04#17 ∧ encode .rpt = 0x10C05#17 ∧ encode .rxp = 0x10C06#17

/-- Decoding the word of a well-formed instruction gives it back, with every operand at every value. -/
def Obligations.DecodeOfEncode : Prop :=
  ∀ i : Instr, i.WellFormed → decode (encode i) = i

/-- The other direction: what a word decodes to is well-formed, and its word is the word itself for a write and the canonical
spelling (D = 0x00, R77) for a read. -/
def Obligations.EncodeOfDecode : Prop :=
  ∀ w : TxWord, (decode w).WellFormed ∧
    encode (decode w) = if w.getLsbD 16 = true then w else w &&& 0x0FF00#17

/- The step -/

/-- A step whose next event is a transaction runs the instruction its word decodes to, the event being taken off the host's
schedule; and with a decodable word placed at the port, the step is exec of that instruction at that state. -/
def Obligations.StepRunsTheDecodedInstruction : Prop :=
  (∀ (s : State) (w : TxWord) (rest : List HostEvent), s.port = .transaction w :: rest →
    step s = exec (decode w) { s with port := rest }) ∧
  (∀ (s : State) (nbits w : Nat) (i : Instr), decodeTableWord nbits w = some i →
    step (s.withFetchWord nbits w) = exec i s)

/-- With no event of the host's left nothing changes (notes/assumptions/3: the model's own reading of R191's last sentence on
the block). -/
def Obligations.StepWithoutEventChangesNothing : Prop :=
  ∀ s : State, s.port = [] → step s = .next s

/-- R159: no block condition is a fault, a stuck state or a refusal, and every command is total. -/
def Obligations.EveryStepCompletes : Prop :=
  (∀ (i : Instr) (s : State), Completes (exec i s)) ∧ (∀ s : State, Completes (step s))

/- Reset (spec/70_reset_and_hazards.md) -/

/-- R181: the state after reset, register by register, at every address: CYC is 0x63 and everything else 0x00. -/
def Obligations.ResetRegisterValues : Prop :=
  (∀ a : Byte, State.reset.portRead a = if a = 0x0E#8 then 0x63#8 else 0x00#8) ∧
  State.reset.fb = Vector.replicate 12 0x00#8 ∧ State.reset.status = 0x00#8 ∧ State.reset.cyc = 0x63#8 ∧
  State.reset.seqOut = 0x00#8 ∧
  State.reset.tx =
    { cycle := 0x00#8, messageType := 0x00#8, peripheralId := 0x00#8, payload := Vector.replicate 9 0x00#8 } ∧
  State.reset.txPlen = 0x00#8 ∧ State.reset.accIn = 0x00#8 ∧ State.reset.rssiLo = 0x00#8 ∧ State.reset.rssiHi = 0x00#8 ∧
  State.reset.rx =
    { cycle := 0x00#8, messageType := 0x00#8, peripheralId := 0x00#8, payload := Vector.replicate 9 0x00#8 } ∧
  State.reset.rxpRes = 0x00#8 ∧ NoReport State.reset.rpt

/-- R180: the reset event, in every state, puts every register into its reset value at once (CYC into CYC_RESET), and the
transactions that follow it are taken from there. That the parameters and the host's schedule stay is notes/assumptions/7. -/
def Obligations.ResetEventRestoresEveryRegister : Prop :=
  ∀ (s : State) (rest : List HostEvent), s.port = .reset :: rest →
    ∃ t, step s = .next t ∧ t.params = s.params ∧ t.port = rest ∧
      ∀ a : Byte, t.portRead a = if a = 0x0E#8 then s.params.cycReset else 0x00#8

/- The host port (spec/40_bus_command.md, spec/20_memory.md) -/

/-- R100: a read of every address returns the register the map of R20 puts there, CMD and the reserved addresses 0x00, and
changes no register (readData, the value the host got, is the model's own field). In a coherent state (every reset state is
coherent, and every step keeps it) the report registers read 0x00 while RPT_VALID is 0. -/
def Obligations.ReadReturnsTheMappedRegister : Prop :=
  (∀ w : TxWord, w.getLsbD 16 = false → decode w = .rd (w.extractLsb' 8 8)) ∧
  ∀ (a : Byte) (s : State), ∃ v, exec (.rd a) s = .next { s with readData := some v } ∧
    (∀ i : Fin 12, a.toNat = i.val → v = s.fb[i]) ∧
    (a = 0x0C#8 → v = 0x00#8) ∧ (a = 0x0D#8 → v = s.status) ∧ (a = 0x0E#8 → v = s.cyc) ∧ (a = 0x0F#8 → v = s.seqOut) ∧
    (a = 0x10#8 → v = s.tx.cycle) ∧ (a = 0x11#8 → v = s.tx.messageType) ∧ (a = 0x12#8 → v = s.tx.peripheralId) ∧
    (a = 0x13#8 → v = s.txPlen) ∧ (∀ j : Fin 9, a.toNat = 0x14 + j.val → v = s.tx.payload[j]) ∧
    (a = 0x1D#8 → v = s.accIn) ∧ (a = 0x1E#8 → v = s.rssiLo) ∧ (a = 0x1F#8 → v = s.rssiHi) ∧
    (a = 0x20#8 → v = s.rx.cycle) ∧ (a = 0x21#8 → v = s.rx.messageType) ∧ (a = 0x22#8 → v = s.rx.peripheralId) ∧
    (∀ j : Fin 9, a.toNat = 0x23 + j.val → v = s.rx.payload[j]) ∧ (a = 0x2C#8 → v = s.rxpRes) ∧
    (a = 0x2D#8 → v = s.rpt.id) ∧ (a = 0x2E#8 → v = s.rpt.rssi) ∧ (a = 0x2F#8 → v = s.rpt.len) ∧
    (∀ k : Fin 5, a.toNat = 0x30 + k.val → v = s.rpt.text[k]) ∧
    (∀ k : Fin 3, a.toNat = 0x35 + k.val → v = s.rpt.aux[k]) ∧ (a = 0x38#8 → v = s.rpt.decl) ∧
    (0x39 ≤ a.toNat → v = 0x00#8) ∧
    (Coherent s → s.status.getLsbD 3 = false → 0x2D ≤ a.toNat → a.toNat ≤ 0x38 → v = 0x00#8)

/-- R101: a write to each RW address stores the data there and nowhere else, a write to CMD performs the command of its value
(given as the instruction its transaction word decodes to), and a write to a RO or reserved address changes nothing. -/
def Obligations.WriteStoresTheMappedRegister : Prop :=
  (∀ w : TxWord, w.getLsbD 16 = true → w.extractLsb' 8 8 ≠ 0x0C#8 →
    decode w = .wr (w.extractLsb' 8 8) (w.extractLsb' 0 8)) ∧
  ∀ (a v : Byte) (s : State),
    (∀ i : Fin 12, a.toNat = i.val → exec (.wr a v) s = .next { s with fb := s.fb.set i.val v }) ∧
    (a = 0x10#8 → exec (.wr a v) s = .next { s with tx := { s.tx with cycle := v } }) ∧
    (a = 0x11#8 → exec (.wr a v) s = .next { s with tx := { s.tx with messageType := v } }) ∧
    (a = 0x12#8 → exec (.wr a v) s = .next { s with tx := { s.tx with peripheralId := v } }) ∧
    (a = 0x13#8 → exec (.wr a v) s = .next { s with txPlen := v }) ∧
    (∀ j : Fin 9, a.toNat = 0x14 + j.val →
      exec (.wr a v) s = .next { s with tx := { s.tx with payload := s.tx.payload.set j.val v } }) ∧
    (a = 0x1D#8 → exec (.wr a v) s = .next { s with accIn := v }) ∧
    (a = 0x1E#8 → exec (.wr a v) s = .next { s with rssiLo := v }) ∧
    (a = 0x1F#8 → exec (.wr a v) s = .next { s with rssiHi := v }) ∧
    (a = 0x0C#8 → exec (.wr a v) s = exec (decode (0x10C00#17 ||| v.setWidth 17)) s) ∧
    (a = 0x0D#8 ∨ a = 0x0E#8 ∨ a = 0x0F#8 ∨ 0x20 ≤ a.toNat → exec (.wr a v) s = .next s)

/-- R52: a read of a reserved address returns 0x00 and a write there is ignored; neither changes a register. -/
def Obligations.ReservedAddressesReadZeroIgnoreWrites : Prop :=
  ∀ (a v : Byte) (s : State), 0x39 ≤ a.toNat →
    exec (.rd a) s = .next { s with readData := some 0x00#8 } ∧ exec (.wr a v) s = .next s

/-- R53: a write to STATUS, CYC, SEQ_OUT, RX_*, RXP_RES or RPT_* is ignored and changes no state; a read of CMD returns 0x00. -/
def Obligations.ReadOnlyRegistersIgnoreWrites : Prop :=
  (∀ (a v : Byte) (s : State), (0x0D ≤ a.toNat ∧ a.toNat ≤ 0x0F) ∨ (0x20 ≤ a.toNat ∧ a.toNat ≤ 0x38) →
    exec (.wr a v) s = .next s) ∧
  (∀ s : State, exec (.rd 0x0C#8) s = .next { s with readData := some 0x00#8 })

/-- R55: after a read every address reads as before, so a second read of the address returns the same value; after a write to
an RW register that address reads the data and every other address reads as before. -/
def Obligations.ReadsAreIdempotentWritesAreLocal : Prop :=
  (∀ (a : Byte) (s : State), ∃ t, exec (.rd a) s = .next t ∧ (∀ b, t.portRead b = s.portRead b) ∧ exec (.rd a) t = .next t) ∧
  (∀ (a v : Byte) (s : State), a.toNat < 0x0C ∨ (0x10 ≤ a.toNat ∧ a.toNat ≤ 0x1F) →
    ∃ t, exec (.wr a v) s = .next t ∧ t.portRead a = v ∧ SameRegsExcept [a] s t ∧ SameEnvironment s t)

/-- R102: NOP, the word 0x10C00, clears ILL_CMD and changes nothing else. -/
def Obligations.NopClearsIllCmdOnly : Prop :=
  decode 0x10C00#17 = .nop ∧
  ∀ s : State, exec .nop s = .next { s with status := s.status &&& 0x7F#8 }

/-- R103: a reserved command value, 0x07 to 0xFF written to CMD, sets ILL_CMD and changes nothing else. -/
def Obligations.ReservedCommandSetsIllCmdOnly : Prop :=
  ∀ (v : Byte) (s : State), 0x07 ≤ v.toNat →
    decode (0x10C00#17 ||| v.setWidth 17) = .reservedCmd v ∧
    exec (.reservedCmd v) s = .next { s with status := s.status ||| 0x80#8 }

/-- R104: a write to CMD of a defined value first clears ILL_CMD and then runs the command the map names, so the command's
outcome is the one it has with ILL_CMD already clear; a write of any other value runs R103. It is one step. -/
def Obligations.CommandDispatchClearsIllCmd : Prop :=
  ∀ (v : Byte) (s : State),
    (v.toNat ≤ 0x06 →
      exec (.wr 0x0C#8 v) s = exec (decode (0x10C00#17 ||| v.setWidth 17)) { s with status := s.status &&& 0x7F#8 } ∧
      ∃ t, exec (.wr 0x0C#8 v) s = .next t ∧ t.status.getLsbD 7 = false) ∧
    (0x07 ≤ v.toNat → exec (.wr 0x0C#8 v) s = .next { s with status := s.status ||| 0x80#8 })

/- The Frame Codec (spec/41_frame_codec.md) -/

/-- R110 and R111: ENC with TX_PLEN at most 9 writes the wire image, padded with 0x00, and clears ENC_ERR; with TX_PLEN above 9 it
sets ENC_ERR and leaves FB. Nothing else changes. -/
def Obligations.EncBuildsTheFrame : Prop :=
  decode 0x10C01#17 = .enc ∧
  ∀ s : State,
    (s.txPlen.toNat ≤ 9 →
      ∃ W : Vector Byte 12, exec .enc s = .next { s with fb := W, status := s.status &&& 0x7E#8 } ∧
        W[0] = s.tx.cycle ∧ W[1] = s.tx.messageType ∧ W[2] = s.tx.peripheralId ∧
        ∀ j : Fin 9, W[3 + j.val] = if j.val < s.txPlen.toNat then s.tx.payload[j] else 0x00#8) ∧
    (9 < s.txPlen.toNat → exec .enc s = .next { s with status := s.status &&& 0x7F#8 ||| 0x01#8 })

/-- R112 and R113: DEC loads the RX registers with FB, positionally, and sets DEC_VALID. Nothing else changes. -/
def Obligations.DecLoadsTheFrame : Prop :=
  decode 0x10C02#17 = .dec ∧
  ∀ s : State, ∃ f, FrameAt s.fb f ∧ exec .dec s = .next { s with rx := f, status := s.status &&& 0x7F#8 ||| 0x02#8 }

/-- R114: decoding an encoded frame gives it back up to the padding, and encoding a decoded wire image gives it back. -/
def Obligations.CodecRoundTrip : Prop :=
  (∀ (c t p : Byte) (n : Nat) (P : Vector Byte 9), n ≤ 9 →
    (decodeFrame (encodeFrame c t p n P)).cycle = c ∧ (decodeFrame (encodeFrame c t p n P)).messageType = t ∧
    (decodeFrame (encodeFrame c t p n P)).peripheralId = p ∧
    ∀ j : Fin 9, (decodeFrame (encodeFrame c t p n P)).payload[j] = if j.val < n then P[j] else 0x00#8) ∧
  (∀ W : Vector Byte 12,
    encodeFrame (decodeFrame W).cycle (decodeFrame W).messageType (decodeFrame W).peripheralId 9 (decodeFrame W).payload = W)

/-- The round trip of R114 at the block: ENC with TX_PLEN at most 9 and then DEC leave in RX the frame of the TX registers, its
payload padded with 0x00. -/
def Obligations.EncThenDecGivesTheFrameBack : Prop :=
  ∀ s : State, s.txPlen.toNat ≤ 9 →
    ∃ t, execAll [.enc, .dec] s = .next t ∧ FrameAt t.fb t.rx ∧
      t.rx.cycle = s.tx.cycle ∧ t.rx.messageType = s.tx.messageType ∧ t.rx.peripheralId = s.tx.peripheralId ∧
      ∀ j : Fin 9, t.rx.payload[j] = if j.val < s.txPlen.toNat then s.tx.payload[j] else 0x00#8

/- The Cycle Sequencer (spec/42_cycle_sequencer.md) -/

/-- R120: NXT adds one to CYC modulo 256, and SEQ_OUT takes the same value. Nothing else but ILL_CMD changes. -/
def Obligations.NxtAdvancesTheCycle : Prop :=
  decode 0x10C03#17 = .nxt ∧
  ∀ s : State, ∃ n : Byte, n.toNat = (s.cyc.toNat + 1) % 256 ∧
    exec .nxt s = .next { s with cyc := n, seqOut := n, status := s.status &&& 0x7F#8 }

/-- R121: two NXTs with no NXT, ACC, RXP or reset between them return values exactly 1 apart modulo 256, whatever else the host
does between them. -/
def Obligations.TwoNxtAreOneApart : Prop :=
  ∀ (between : List Instr) (s t u : State),
    (∀ i ∈ between, i.WellFormed ∧ i ≠ .nxt ∧ i ≠ .acc ∧ i ≠ .rxp) →
    execAll [.nxt] s = .next t → execAll (between ++ [.nxt]) t = .next u →
    u.seqOut = t.seqOut + 1#8

/-- R122 and R123: ACC accepts ACC_IN exactly when it differs from CYC: then CYC takes it and ACC_NEW is 1, else CYC stays and
ACC_NEW is 0. Nothing else but ILL_CMD changes. -/
def Obligations.AccAcceptsADifferentCycle : Prop :=
  decode 0x10C04#17 = .acc ∧
  ∀ s : State, exec .acc s =
    if s.accIn = s.cyc then .next { s with status := s.status &&& 0x7B#8 }
    else .next { s with cyc := s.accIn, status := s.status &&& 0x7F#8 ||| 0x04#8 }

/-- R125: three ACCs with candidates c1, c1, c2, where c1 and c2 differ, give ACC_NEW false in the middle and true at the end, CYC
ending at c2; the first gives true exactly when c1 differs from CYC. -/
def Obligations.AccRepeatIsADuplicate : Prop :=
  ∀ (s : State) (c1 c2 : Byte), c1 ≠ c2 →
    ∃ t u v, execAll [.wr 0x1D#8 c1, .acc] s = .next t ∧ execAll [.wr 0x1D#8 c1, .acc] t = .next u ∧
      execAll [.wr 0x1D#8 c2, .acc] u = .next v ∧
      t.status.getLsbD 2 = decide (c1 ≠ s.cyc) ∧ u.status.getLsbD 2 = false ∧ v.status.getLsbD 2 = true ∧ v.cyc = c2

/-- R124: the check has no window: c1, c2, c1 with c1 and c2 different are accepted three times where c1 is new. -/
def Obligations.AccHasNoWindow : Prop :=
  ∀ (s : State) (c1 c2 : Byte), c1 ≠ c2 → c1 ≠ s.cyc →
    ∃ t u v, execAll [.wr 0x1D#8 c1, .acc] s = .next t ∧ execAll [.wr 0x1D#8 c2, .acc] t = .next u ∧
      execAll [.wr 0x1D#8 c1, .acc] u = .next v ∧
      t.status.getLsbD 2 = true ∧ u.status.getLsbD 2 = true ∧ v.status.getLsbD 2 = true ∧ v.cyc = c1

/-- R187: after NXT, a candidate or a frame that carries the cycle id just produced is a duplicate for ACC and for RXP (for RXP
where its duplicate check runs), and CYC stays. -/
def Obligations.OwnRequestEchoIsADuplicate : Prop :=
  ∀ s : State, ∃ t, exec .nxt s = .next t ∧
    (∃ u, execAll [.wr 0x1D#8 t.seqOut, .acc] t = .next u ∧ u.status.getLsbD 2 = false ∧ u.cyc = t.cyc) ∧
    (s.params.rxpOrder = .dedupFirst ∨ s.fb[1] = s.params.mtResponseReport →
      ∃ u, execAll [.wr 0x00#8 t.seqOut, .rxp] t = .next u ∧ u.rxpRes = 0x02#8 ∧ u.status.getLsbD 2 = false ∧
        u.cyc = t.cyc ∧ NoReport u.rpt)

/- The Report Decoder and the receive validator (spec/43_report_extractor.md) -/

/-- R132: the text octets a declared length selects and the clamp flag, under both conventions; this hardware has EXACT. -/
def Obligations.TextCountByConvention : Prop :=
  (∀ L : Byte, textCount .exact L = (min L.toNat 5, decide (5 < L.toNat))) ∧
  (∀ L : Byte, L ≠ 0x00#8 → textCount .inclusive L = (min (L.toNat - 1) 5, decide (5 < L.toNat - 1))) ∧
  textCount .inclusive 0x00#8 = (0, false) ∧ State.reset.params.lenConv = .exact

/-- R57 and R133: the RSSI operand is the 16-bit two's complement value RSSI_HI : RSSI_LO, little-endian, and its magnitude is
min(abs, 255) for every such value. -/
def Obligations.RssiMagnitudeSaturates : Prop :=
  (∀ s : State, s.rssiValue = (s.rssiHi.toNat * 256 + s.rssiLo.toNat : Int) - (if 128 ≤ s.rssiHi.toNat then 65536 else 0)) ∧
  (∀ v : Int, -32768 ≤ v → v ≤ 32767 → ((rssiMag v).toNat : Int) = min |v| 255)

/-- R136 with R134 and R135: RPT reports NODATA before anything was decoded, else TYPE_ERR where RX_TYPE is not
MT_RESPONSE_REPORT, in both cases with the report registers cleared, and else builds the report. Only the report registers and
STATUS change, and of STATUS ENC_ERR, DEC_VALID and ACC_NEW stay. -/
def Obligations.RptExtractsTheReport : Prop :=
  decode 0x10C05#17 = .rpt ∧
  ∀ s : State,
    (s.status.getLsbD 1 = false →
      ∃ r, NoReport r ∧ exec .rpt s = .next { s with rpt := r, status := s.status &&& 0x07#8 ||| 0x40#8 }) ∧
    (s.status.getLsbD 1 = true → s.rx.messageType ≠ s.params.mtResponseReport →
      ∃ r, NoReport r ∧ exec .rpt s = .next { s with rpt := r, status := s.status &&& 0x07#8 ||| 0x10#8 }) ∧
    (s.status.getLsbD 1 = true → s.rx.messageType = s.params.mtResponseReport →
      ∃ r clamp, IsReport s.params.lenConv s.rx s.rssiHi s.rssiLo r clamp ∧
        exec .rpt s = .next { s with
          rpt := r, status := s.status &&& 0x07#8 ||| 0x08#8 ||| (if clamp = true then 0x20#8 else 0x00#8) })

/-- R137 with R134 and R135: RXP decodes FB into RX and then, by the order RXP_ORDER gives, ends as BADTYPE with CYC and ACC_NEW
unchanged, as DUPLICATE, as BADTYPE with CYC moved, or with the report. Every path writes exactly the fields named. -/
def Obligations.RxpValidatesAndExtracts : Prop :=
  decode 0x10C06#17 = .rxp ∧
  ∀ s : State, ∃ f, FrameAt s.fb f ∧
    (s.params.rxpOrder = .typeFirst → f.messageType ≠ s.params.mtResponseReport →
      ∃ r, NoReport r ∧ exec .rxp s = .next { s with
        rx := f, rpt := r, rxpRes := 0x03#8, status := s.status &&& 0x05#8 ||| 0x12#8 }) ∧
    (s.params.rxpOrder = .dedupFirst ∨ f.messageType = s.params.mtResponseReport → f.cycle = s.cyc →
      ∃ r, NoReport r ∧ exec .rxp s = .next { s with
        rx := f, rpt := r, rxpRes := 0x02#8, status := s.status &&& 0x01#8 ||| 0x02#8 }) ∧
    (s.params.rxpOrder = .dedupFirst → f.cycle ≠ s.cyc → f.messageType ≠ s.params.mtResponseReport →
      ∃ r, NoReport r ∧ exec .rxp s = .next { s with
        rx := f, rpt := r, cyc := f.cycle, rxpRes := 0x03#8, status := s.status &&& 0x01#8 ||| 0x16#8 }) ∧
    (f.cycle ≠ s.cyc → f.messageType = s.params.mtResponseReport →
      ∃ r clamp, IsReport s.params.lenConv f s.rssiHi s.rssiLo r clamp ∧ exec .rxp s = .next { s with
        rx := f, rpt := r, cyc := f.cycle, rxpRes := 0x01#8,
        status := s.status &&& 0x01#8 ||| 0x0E#8 ||| (if clamp = true then 0x20#8 else 0x00#8) })

/-- R139: after RXP has accepted a response, the report's sensor text is exactly the designated frame bytes: bytes 7..6+L under
EXACT for L at most 5, bytes 7..5+L under INCLUSIVE for L from 1 to 6. -/
def Obligations.SensorTextIsTheDesignatedBytes : Prop :=
  ∀ s t : State, exec .rxp s = .next t → t.rxpRes = 0x01#8 →
    ∃ p, t.peripheralReport = some p ∧ p.peripheralId = s.fb[2] ∧
      (s.params.lenConv = .exact → s.fb[6].toNat ≤ 5 → p.sensorText = (s.fb.toList.drop 7).take s.fb[6].toNat) ∧
      (s.params.lenConv = .inclusive → 1 ≤ s.fb[6].toNat → s.fb[6].toNat ≤ 6 →
        p.sensorText = (s.fb.toList.drop 7).take (s.fb[6].toNat - 1))

/-- R138: neither RPT nor RXP compares the frame's peripheralId with any value: with another id in the frame everything comes
out the same but the id itself, in RX_ID and in the report. -/
def Obligations.PeripheralIdIsNeverCompared : Prop :=
  (∀ (s t : State) (x : Byte), exec .rxp s = .next t →
    exec .rxp { s with fb := s.fb.set 2 x } = .next { t with
      fb := s.fb.set 2 x
      rx := { t.rx with peripheralId := x }
      rpt := if t.status.getLsbD 3 = true then { t.rpt with id := x } else t.rpt }) ∧
  (∀ (s t : State) (x : Byte), exec .rpt s = .next t →
    exec .rpt { s with rx := { s.rx with peripheralId := x } } = .next { t with
      rx := { s.rx with peripheralId := x }
      rpt := if t.status.getLsbD 3 = true then { t.rpt with id := x } else t.rpt })

/-- R136, corner cases: RPT twice on the same RX and RSSI registers gives the same state as once. -/
def Obligations.RptTwiceIsRptOnce : Prop :=
  ∀ s t : State, exec .rpt s = .next t → exec .rpt t = .next t

/-- R137, corner cases: RXP that accepted a report and then RXP on the same FB gives DUPLICATE, with the report cleared and CYC
as the first one left it. -/
def Obligations.RxpRepeatIsADuplicate : Prop :=
  ∀ s t : State, exec .rxp s = .next t → t.rxpRes = 0x01#8 →
    ∃ u, exec .rxp t = .next u ∧ u.rxpRes = 0x02#8 ∧ u.cyc = t.cyc ∧ u.rx = t.rx ∧ NoReport u.rpt ∧
      u.status.getLsbD 2 = false ∧ u.status.getLsbD 3 = false

/-- R189: under DEDUP_FIRST a frame with a new cycle id that is no response moves CYC, and a response with the same id that comes
next is a duplicate. -/
def Obligations.RejectedFrameStillMovesCyc : Prop :=
  ∀ (s : State) (W : Vector Byte 12), s.params.rxpOrder = .dedupFirst → s.fb[0] ≠ s.cyc →
    s.fb[1] ≠ s.params.mtResponseReport → W[0] = s.fb[0] → W[1] = s.params.mtResponseReport →
    ∃ t u, exec .rxp s = .next t ∧ t.rxpRes = 0x03#8 ∧ t.cyc = s.fb[0] ∧
      exec .rxp { t with fb := W } = .next u ∧ u.rxpRes = 0x02#8 ∧ NoReport u.rpt

/-- R162: the host's own path DEC, RD RX_CYC, WR ACC_IN, ACC and, if new, RPT, against RXP under DEDUP_FIRST: the same CYC, RX and
ACC_NEW; where ACC_NEW is 1 the same report registers, RPT_VALID and TYPE_ERR. It changes ACC_IN and leaves RXP_RES, and on a
duplicate it leaves the report registers and RPT_VALID, where RXP clears the report registers. -/
def Obligations.ManualPathAgreesWithRxp : Prop :=
  ∀ s : State, s.params.rxpOrder = .dedupFirst →
    ∃ r m c, exec .rxp s = .next r ∧ execAll [.dec, .rd 0x20#8] s = .next m ∧ m.readData = some c ∧
      ∃ k, execAll [.wr 0x1D#8 c, .acc] m = .next k ∧
        k.cyc = r.cyc ∧ k.rx = r.rx ∧ k.status.getLsbD 2 = r.status.getLsbD 2 ∧ k.accIn = s.fb[0] ∧ k.rxpRes = s.rxpRes ∧
        (k.status.getLsbD 2 = false → k.rpt = s.rpt ∧ k.status.getLsbD 3 = s.status.getLsbD 3 ∧ NoReport r.rpt) ∧
        (k.status.getLsbD 2 = true → ∃ q, exec .rpt k = .next q ∧
          q.rpt = r.rpt ∧ q.status.getLsbD 3 = r.status.getLsbD 3 ∧ q.status.getLsbD 4 = r.status.getLsbD 4 ∧
          q.cyc = r.cyc ∧ q.rx = r.rx ∧ q.accIn = s.fb[0] ∧ q.rxpRes = s.rxpRes)

/- Rules about the whole machine: which instructions change what -/

/-- R32: CYC is written only by NXT, ACC and RXP: by NXT with the next value, by ACC and RXP with an accepted different cycle id;
its reset value is 0x63. -/
def Obligations.OnlySequencerCommandsWriteCyc : Prop :=
  State.reset.cyc = 0x63#8 ∧
  ∀ (i : Instr) (s t : State), i.WellFormed → exec i s = .next t → t.cyc ≠ s.cyc →
    (i = .nxt ∧ t.cyc = s.cyc + 1#8) ∨ (i = .acc ∧ t.cyc = s.accIn) ∨ (i = .rxp ∧ t.cyc = s.fb[0])

/-- R24, R25, R26 and R31: the bits ENC_ERR, DEC_VALID, ACC_NEW and ILL_CMD after every instruction, and 0 after reset. -/
def Obligations.CommandStatusBits : Prop :=
  State.reset.status &&& 0x87#8 = 0x00#8 ∧
  ∀ (i : Instr) (s t : State), i.WellFormed → exec i s = .next t →
    t.status.getLsbD 0 = (if i = .enc then decide (9 < s.txPlen.toNat) else s.status.getLsbD 0) ∧
    t.status.getLsbD 1 = (if i = .dec ∨ i = .rxp then true else s.status.getLsbD 1) ∧
    t.status.getLsbD 2 =
      (if i = .acc then decide (s.accIn ≠ s.cyc)
       else if i = .rxp ∧ (s.params.rxpOrder = .dedupFirst ∨ s.fb[1] = s.params.mtResponseReport)
         then decide (s.fb[0] ≠ s.cyc)
       else s.status.getLsbD 2) ∧
    t.status.getLsbD 7 =
      (match i with
       | .rd _ | .wr _ _ => s.status.getLsbD 7
       | .reservedCmd _ => true
       | .nop | .enc | .dec | .nxt | .acc | .rpt | .rxp => false)

/-- R27 to R30: the bits RPT_VALID, TYPE_ERR, LEN_CLAMP and NODATA after every instruction, and 0 after reset. Only RPT and RXP
change them. -/
def Obligations.ReportStatusBits : Prop :=
  State.reset.status &&& 0x78#8 = 0x00#8 ∧
  ∀ (i : Instr) (s t : State), i.WellFormed → exec i s = .next t →
    (i = .rpt →
      t.status.getLsbD 3 = (s.status.getLsbD 1 && decide (s.rx.messageType = s.params.mtResponseReport)) ∧
      t.status.getLsbD 4 = (s.status.getLsbD 1 && decide (s.rx.messageType ≠ s.params.mtResponseReport)) ∧
      t.status.getLsbD 5 = (t.status.getLsbD 3 && decide (5 < wantedText s.params.lenConv s.rx.payload[3])) ∧
      t.status.getLsbD 6 = !s.status.getLsbD 1) ∧
    (i = .rxp →
      t.status.getLsbD 3 = (decide (s.fb[0] ≠ s.cyc) && decide (s.fb[1] = s.params.mtResponseReport)) ∧
      t.status.getLsbD 4 = (decide (s.params.rxpOrder = .typeFirst ∨ s.fb[0] ≠ s.cyc) &&
        decide (s.fb[1] ≠ s.params.mtResponseReport)) ∧
      t.status.getLsbD 5 = (t.status.getLsbD 3 && decide (5 < wantedText s.params.lenConv s.fb[6])) ∧
      t.status.getLsbD 6 = false) ∧
    (i ≠ .rpt → i ≠ .rxp → t.status &&& 0x78#8 = s.status &&& 0x78#8)

/-- R25 along a step: nothing clears DEC_VALID but the reset. -/
def Obligations.OnlyResetClearsDecValid : Prop :=
  ∀ s t : State, step s = .next t → s.status.getLsbD 1 = true → t.status.getLsbD 1 = false →
    ∃ rest, s.port = .reset :: rest

/-- R33: SEQ_OUT is written only by NXT, equals CYC right after it, and is 0x00 after reset. -/
def Obligations.OnlyNxtWritesSeqOut : Prop :=
  State.reset.seqOut = 0x00#8 ∧
  (∀ (i : Instr) (s t : State), i.WellFormed → exec i s = .next t → i ≠ .nxt → t.seqOut = s.seqOut) ∧
  (∀ s : State, ∃ t, exec .nxt s = .next t ∧ t.seqOut = t.cyc)

/-- The registers only the host writes (R34 to R38): TX_*, TX_PLEN, ACC_IN and RSSI_* are the same after every instruction but a
WR, and a WR at their addresses stores every value. -/
def Obligations.OnlyTheHostWritesOperands : Prop :=
  (∀ (i : Instr) (s t : State), (∀ a v, i ≠ .wr a v) → exec i s = .next t →
    t.tx = s.tx ∧ t.txPlen = s.txPlen ∧ t.accIn = s.accIn ∧ t.rssiLo = s.rssiLo ∧ t.rssiHi = s.rssiHi) ∧
  (∀ (a v : Byte) (s : State), 0x10 ≤ a.toNat → a.toNat ≤ 0x1F → ∃ t, exec (.wr a v) s = .next t ∧ t.portRead a = v)

/-- R39: RX is written only by DEC and RXP, all of it together, with the frame in FB; it is all 0x00 after reset. -/
def Obligations.OnlyDecAndRxpWriteRx : Prop :=
  (∀ a : Byte, 0x20 ≤ a.toNat → a.toNat ≤ 0x2B → State.reset.portRead a = 0x00#8) ∧
  ∀ (i : Instr) (s t : State), i.WellFormed → exec i s = .next t →
    (i = .dec ∨ i = .rxp → FrameAt s.fb t.rx) ∧ (i ≠ .dec → i ≠ .rxp → t.rx = s.rx)

/-- R40: RXP_RES is written only by RXP, with one of the codes 0x01, 0x02, 0x03: 0x01 exactly when a report was built, 0x02
exactly when the duplicate check ran and rejected the frame, 0x03 exactly on a type error; it is 0x00 after reset. -/
def Obligations.OnlyRxpWritesItsOutcome : Prop :=
  State.reset.rxpRes = 0x00#8 ∧
  ∀ (i : Instr) (s t : State), i.WellFormed → exec i s = .next t →
    (i ≠ .rxp → t.rxpRes = s.rxpRes) ∧
    (i = .rxp → (t.rxpRes = 0x01#8 ∨ t.rxpRes = 0x02#8 ∨ t.rxpRes = 0x03#8) ∧
      (t.rxpRes = 0x01#8 ↔ t.status.getLsbD 3 = true) ∧ (t.rxpRes = 0x03#8 ↔ t.status.getLsbD 4 = true) ∧
      (t.rxpRes = 0x02#8 ↔
        s.fb[0] = s.cyc ∧ (s.params.rxpOrder = .dedupFirst ∨ s.fb[1] = s.params.mtResponseReport)))

/-- The frame buffer (R21): only ENC and a WR to one of its addresses change it. -/
def Obligations.OnlyEncAndTheHostWriteFb : Prop :=
  ∀ (i : Instr) (s t : State), i.WellFormed → exec i s = .next t → t.fb ≠ s.fb →
    (i = .enc ∧ s.txPlen.toNat ≤ 9) ∨ ∃ a v, i = .wr a v ∧ a.toNat < 0x0C

/-- The report registers (R41 to R44): only RPT and RXP change them, and after either they hold the report of the frame in RX or
are all 0x00, as RPT_VALID says. -/
def Obligations.OnlyRptAndRxpWriteTheReport : Prop :=
  ∀ (i : Instr) (s t : State), i.WellFormed → exec i s = .next t →
    (i ≠ .rpt → i ≠ .rxp → t.rpt = s.rpt) ∧
    (i = .rpt ∨ i = .rxp →
      (t.status.getLsbD 3 = true → IsReport t.params.lenConv t.rx t.rssiHi t.rssiLo t.rpt (t.status.getLsbD 5)) ∧
      (t.status.getLsbD 3 = false → NoReport t.rpt))

/-- What each command leaves unchanged, at every address of the register space: only the addresses listed may read
differently afterwards. The parameters, the host's schedule and the value it last read stay, and so do the STATUS bits under a
command's mask, where it has one. NOP and RESERVED_CMD have none here (NopClearsIllCmdOnly and ReservedCommandSetsIllCmdOnly give
their STATUS whole), and RXP's keeps ENC_ERR alone (CommandStatusBits says when ACC_NEW stays). -/
def Obligations.CommandFrames : Prop :=
  ∀ s t : State,
    (exec .nop s = .next t → SameRegsExcept [0x0D#8] s t ∧ SameEnvironment s t) ∧
    (∀ v : Byte, exec (.reservedCmd v) s = .next t → SameRegsExcept [0x0D#8] s t ∧ SameEnvironment s t) ∧
    (exec .enc s = .next t →
      SameRegsExcept [0x0D#8, 0x00#8, 0x01#8, 0x02#8, 0x03#8, 0x04#8, 0x05#8, 0x06#8, 0x07#8, 0x08#8, 0x09#8, 0x0A#8, 0x0B#8]
        s t ∧ SameEnvironment s t ∧ t.status &&& 0x7E#8 = s.status &&& 0x7E#8) ∧
    (exec .dec s = .next t →
      SameRegsExcept [0x0D#8, 0x20#8, 0x21#8, 0x22#8, 0x23#8, 0x24#8, 0x25#8, 0x26#8, 0x27#8, 0x28#8, 0x29#8, 0x2A#8, 0x2B#8]
        s t ∧ SameEnvironment s t ∧ t.status &&& 0x7D#8 = s.status &&& 0x7D#8) ∧
    (exec .nxt s = .next t →
      SameRegsExcept [0x0D#8, 0x0E#8, 0x0F#8] s t ∧ SameEnvironment s t ∧ t.status &&& 0x7F#8 = s.status &&& 0x7F#8) ∧
    (exec .acc s = .next t →
      SameRegsExcept [0x0D#8, 0x0E#8] s t ∧ SameEnvironment s t ∧ t.status &&& 0x7B#8 = s.status &&& 0x7B#8) ∧
    (exec .rpt s = .next t →
      SameRegsExcept [0x0D#8, 0x2D#8, 0x2E#8, 0x2F#8, 0x30#8, 0x31#8, 0x32#8, 0x33#8, 0x34#8, 0x35#8, 0x36#8, 0x37#8, 0x38#8]
        s t ∧ SameEnvironment s t ∧ t.status &&& 0x07#8 = s.status &&& 0x07#8) ∧
    (exec .rxp s = .next t →
      (∀ a : Byte, a ≠ 0x0D#8 → a ≠ 0x0E#8 → (a.toNat < 0x20 ∨ 0x38 < a.toNat) → t.portRead a = s.portRead a) ∧
      SameEnvironment s t ∧ t.status &&& 0x01#8 = s.status &&& 0x01#8)

/-- R73: the type code of requests is never compared, and ENC and DEC compare no type at all: with another MT_REQUEST_REPORT every
instruction does the same, and with another MT_RESPONSE_REPORT ENC, DEC, NXT and ACC do. -/
def Obligations.OnlyTheResponseCodeIsCompared : Prop :=
  (∀ (i : Instr) (s t : State) (x : Byte), exec i s = .next t →
    exec i { s with params := { s.params with mtRequestReport := x } } =
      .next { t with params := { t.params with mtRequestReport := x } }) ∧
  (∀ (i : Instr) (s t : State) (x : Byte), i = .enc ∨ i = .dec ∨ i = .nxt ∨ i = .acc → exec i s = .next t →
    exec i { s with params := { s.params with mtResponseReport := x } } =
      .next { t with params := { t.params with mtResponseReport := x } })

/- Invariants -/

/-- Every reset state is coherent: for all parameters that meet R5's constraints, and for this hardware's own, whatever its two
OPEN codes are. -/
def Obligations.ResetIsCoherent : Prop :=
  (∀ p : Params, p.wf = true → Coherent (State.resetWith p)) ∧ Config.hardware.wf = true ∧ Coherent State.reset

/-- Every step from a coherent state leads to a coherent state: report registers that are 0x00 without a report, RPT_LEN and
LEN_CLAMP as the declared length gives them, 0x00 beyond the text, the four outcome codes, the exclusions among the report bits,
and RX at its reset value until something is decoded. -/
def Obligations.StepKeepsCoherence : Prop :=
  ∀ s t : State, Coherent s → step s = .next t → Coherent t

/-- No step changes the build-time parameters (R183 item 1), and a step takes exactly the host's next event, if there is one. That
the host's schedule is a list taken one event a step (notes/assumptions/1), that an empty one stays empty (notes/assumptions/3),
and that the parameters and the rest of the schedule stay over a reset (notes/assumptions/7) is the model's choice. -/
def Obligations.StepKeepsTheParameters : Prop :=
  ∀ s t : State, step s = .next t → t.params = s.params ∧ t.port = s.port.tail

/- The host (spec/60_exceptions.md section 4; it is the block's environment) -/

/-- R161, steps 1 to 3: in RequestingReport the controller advances the cycle, encodes a request with the new cycle id, the type
MT_REQUEST_REPORT, the target and the chosen payload, and reads it out of FB; it waits for the channel with it. -/
def Obligations.HostBuildsTheRequest : Prop :=
  ∀ (c : Controller) (plen : Byte) (payload : Vector Byte 9), c.status = .requestingReport → plen.toNat ≤ 9 →
    ∃ d, controllerStep (.request plen payload) c = .next d ∧ d.status = .sensingChannel d.block.fb.toList ∧
      d.block.cyc = c.block.cyc + 1#8 ∧ d.block.fb[0] = d.block.cyc ∧
      d.block.fb[1] = c.block.params.mtRequestReport ∧ d.block.fb[2] = c.target ∧
      (∀ j : Fin 9, d.block.fb[3 + j.val] = if j.val < plen.toNat then payload[j] else 0x00#8) ∧
      d.sent = c.sent ∧ d.reports = c.reports

/-- R161 step 4 with R164: the channel sense gate holds the frame while the sample exceeds the threshold, and otherwise the
frame goes to the radio and the host listens. The waiting sub-state (notes/assumptions/16) and samples in whole dBm
(notes/assumptions/18) are the model's choice. -/
def Obligations.HostSendsOnAClearChannel : Prop :=
  ∀ (c : Controller) (frame : List Byte) (rssi : Int), c.status = .sensingChannel frame →
    (c.thresholdDbm < rssi → controllerStep (.sample rssi) c = .next c) ∧
    (rssi ≤ c.thresholdDbm → controllerStep (.sample rssi) c =
      .next { c with status := .listeningForResponse, sent := c.sent ++ [frame] })

/-- R162: a received packet gives the diagnostics sink exactly one report, and ends the listening, exactly when its cycle id
differs from CYC and its type is MT_RESPONSE_REPORT. -/
def Obligations.OnlyANewResponseEndsListening : Prop :=
  ∀ (c : Controller) (packet : Vector Byte 12) (rssi : BitVec 16), c.status = .listeningForResponse →
    ∃ d, controllerStep (.received (.success packet rssi)) c = .next d ∧ d.sent = c.sent ∧
      (packet[0] ≠ c.block.cyc → packet[1] = c.block.params.mtResponseReport →
        d.status = .requestingReport ∧ d.block.cyc = packet[0] ∧
        ∃ p, d.reports = c.reports ++ [p] ∧ p.peripheralId = packet[2] ∧
          p.rssiMagnitude.toNat = min rssi.toInt.natAbs 255 ∧
          p.sensorText = (packet.toList.drop 7).take (min (wantedText c.block.params.lenConv packet[6]) 5)) ∧
      (packet[0] = c.block.cyc ∨ packet[1] ≠ c.block.params.mtResponseReport →
        d.status = .listeningForResponse ∧ d.reports = c.reports)

/-- R162: a receive that fails or times out issues no transaction, and the host goes on listening. -/
def Obligations.FailedReceiveTouchesNothing : Prop :=
  ∀ (c : Controller) (o : RxOutcome), o = .rxTimeout ∨ o = .crcMismatch ∨ o = .otherError →
    c.status = .listeningForResponse → controllerStep (.received o) c = .next c

/-- R160 and R165: no step leads into ReportTimedOut, and a host that halted after a failed bring-up never moves again. That every
step of the host completes, an input it does not wait for changing nothing (notes/assumptions/16), and that no input restarts the
controller (notes/assumptions/19), is the model's choice. -/
def Obligations.HostNeverReachesReportTimedOut : Prop :=
  ∀ (e : HostInput) (c : Controller), ∃ d, controllerStep e c = .next d ∧
    (d.status = .reportTimedOut → c.status = .reportTimedOut) ∧
    (d.status = .halted → c.status = .halted ∨ (c.status = .initializing ∧ e = .bringUp false)) ∧
    (c.status = .halted → d = c)
end

