-- ==== Sys2Proof/Laws/State.lean ====
section
/-! SUPPORT. One lemma per field of State for each named update of it, so that no later proof unfolds a record update. -/

namespace Sys2Proof.Machine

variable (s : State)

@[simp] theorem State.setFlag_fb (f : Flag) (b : Bool) : (s.setFlag f b).fb = s.fb := rfl
@[simp] theorem State.setFlag_status (f : Flag) (b : Bool) : (s.setFlag f b).status = statusSet s.status f b := rfl
@[simp] theorem State.setFlag_cyc (f : Flag) (b : Bool) : (s.setFlag f b).cyc = s.cyc := rfl
@[simp] theorem State.setFlag_seqOut (f : Flag) (b : Bool) : (s.setFlag f b).seqOut = s.seqOut := rfl
@[simp] theorem State.setFlag_tx (f : Flag) (b : Bool) : (s.setFlag f b).tx = s.tx := rfl
@[simp] theorem State.setFlag_txPlen (f : Flag) (b : Bool) : (s.setFlag f b).txPlen = s.txPlen := rfl
@[simp] theorem State.setFlag_accIn (f : Flag) (b : Bool) : (s.setFlag f b).accIn = s.accIn := rfl
@[simp] theorem State.setFlag_rssiLo (f : Flag) (b : Bool) : (s.setFlag f b).rssiLo = s.rssiLo := rfl
@[simp] theorem State.setFlag_rssiHi (f : Flag) (b : Bool) : (s.setFlag f b).rssiHi = s.rssiHi := rfl
@[simp] theorem State.setFlag_rx (f : Flag) (b : Bool) : (s.setFlag f b).rx = s.rx := rfl
@[simp] theorem State.setFlag_rxpRes (f : Flag) (b : Bool) : (s.setFlag f b).rxpRes = s.rxpRes := rfl
@[simp] theorem State.setFlag_rpt (f : Flag) (b : Bool) : (s.setFlag f b).rpt = s.rpt := rfl
@[simp] theorem State.setFlag_params (f : Flag) (b : Bool) : (s.setFlag f b).params = s.params := rfl
@[simp] theorem State.setFlag_port (f : Flag) (b : Bool) : (s.setFlag f b).port = s.port := rfl
@[simp] theorem State.setFlag_readData (f : Flag) (b : Bool) : (s.setFlag f b).readData = s.readData := rfl

@[simp] theorem State.raise_fb (f : Flag) : (s.raise f).fb = s.fb := rfl
@[simp] theorem State.raise_status (f : Flag) : (s.raise f).status = statusSet s.status f true := rfl
@[simp] theorem State.raise_cyc (f : Flag) : (s.raise f).cyc = s.cyc := rfl
@[simp] theorem State.raise_seqOut (f : Flag) : (s.raise f).seqOut = s.seqOut := rfl
@[simp] theorem State.raise_tx (f : Flag) : (s.raise f).tx = s.tx := rfl
@[simp] theorem State.raise_txPlen (f : Flag) : (s.raise f).txPlen = s.txPlen := rfl
@[simp] theorem State.raise_accIn (f : Flag) : (s.raise f).accIn = s.accIn := rfl
@[simp] theorem State.raise_rssiLo (f : Flag) : (s.raise f).rssiLo = s.rssiLo := rfl
@[simp] theorem State.raise_rssiHi (f : Flag) : (s.raise f).rssiHi = s.rssiHi := rfl
@[simp] theorem State.raise_rx (f : Flag) : (s.raise f).rx = s.rx := rfl
@[simp] theorem State.raise_rxpRes (f : Flag) : (s.raise f).rxpRes = s.rxpRes := rfl
@[simp] theorem State.raise_rpt (f : Flag) : (s.raise f).rpt = s.rpt := rfl
@[simp] theorem State.raise_params (f : Flag) : (s.raise f).params = s.params := rfl
@[simp] theorem State.raise_port (f : Flag) : (s.raise f).port = s.port := rfl
@[simp] theorem State.raise_readData (f : Flag) : (s.raise f).readData = s.readData := rfl

@[simp] theorem State.beginCommand_fb : (s.beginCommand).fb = s.fb := rfl
@[simp] theorem State.beginCommand_status : (s.beginCommand).status = statusSet s.status .illCmd false := rfl
@[simp] theorem State.beginCommand_cyc : (s.beginCommand).cyc = s.cyc := rfl
@[simp] theorem State.beginCommand_seqOut : (s.beginCommand).seqOut = s.seqOut := rfl
@[simp] theorem State.beginCommand_tx : (s.beginCommand).tx = s.tx := rfl
@[simp] theorem State.beginCommand_txPlen : (s.beginCommand).txPlen = s.txPlen := rfl
@[simp] theorem State.beginCommand_accIn : (s.beginCommand).accIn = s.accIn := rfl
@[simp] theorem State.beginCommand_rssiLo : (s.beginCommand).rssiLo = s.rssiLo := rfl
@[simp] theorem State.beginCommand_rssiHi : (s.beginCommand).rssiHi = s.rssiHi := rfl
@[simp] theorem State.beginCommand_rx : (s.beginCommand).rx = s.rx := rfl
@[simp] theorem State.beginCommand_rxpRes : (s.beginCommand).rxpRes = s.rxpRes := rfl
@[simp] theorem State.beginCommand_rpt : (s.beginCommand).rpt = s.rpt := rfl
@[simp] theorem State.beginCommand_params : (s.beginCommand).params = s.params := rfl
@[simp] theorem State.beginCommand_port : (s.beginCommand).port = s.port := rfl
@[simp] theorem State.beginCommand_readData : (s.beginCommand).readData = s.readData := rfl

@[simp] theorem State.loadRx_fb : (s.loadRx).fb = s.fb := rfl
@[simp] theorem State.loadRx_status : (s.loadRx).status = statusSet s.status .decValid true := rfl
@[simp] theorem State.loadRx_cyc : (s.loadRx).cyc = s.cyc := rfl
@[simp] theorem State.loadRx_seqOut : (s.loadRx).seqOut = s.seqOut := rfl
@[simp] theorem State.loadRx_tx : (s.loadRx).tx = s.tx := rfl
@[simp] theorem State.loadRx_txPlen : (s.loadRx).txPlen = s.txPlen := rfl
@[simp] theorem State.loadRx_accIn : (s.loadRx).accIn = s.accIn := rfl
@[simp] theorem State.loadRx_rssiLo : (s.loadRx).rssiLo = s.rssiLo := rfl
@[simp] theorem State.loadRx_rssiHi : (s.loadRx).rssiHi = s.rssiHi := rfl
@[simp] theorem State.loadRx_rx : (s.loadRx).rx = decodeFrame s.fb := rfl
@[simp] theorem State.loadRx_rxpRes : (s.loadRx).rxpRes = s.rxpRes := rfl
@[simp] theorem State.loadRx_rpt : (s.loadRx).rpt = s.rpt := rfl
@[simp] theorem State.loadRx_params : (s.loadRx).params = s.params := rfl
@[simp] theorem State.loadRx_port : (s.loadRx).port = s.port := rfl
@[simp] theorem State.loadRx_readData : (s.loadRx).readData = s.readData := rfl

@[simp] theorem State.dedup_fb (cand : Byte) : (s.dedup cand).fb = s.fb := rfl
@[simp] theorem State.dedup_status (cand : Byte) : (s.dedup cand).status = statusSet s.status .accNew (acceptIfNew cand s.cyc).1 := rfl
@[simp] theorem State.dedup_cyc (cand : Byte) : (s.dedup cand).cyc = (acceptIfNew cand s.cyc).2 := rfl
@[simp] theorem State.dedup_seqOut (cand : Byte) : (s.dedup cand).seqOut = s.seqOut := rfl
@[simp] theorem State.dedup_tx (cand : Byte) : (s.dedup cand).tx = s.tx := rfl
@[simp] theorem State.dedup_txPlen (cand : Byte) : (s.dedup cand).txPlen = s.txPlen := rfl
@[simp] theorem State.dedup_accIn (cand : Byte) : (s.dedup cand).accIn = s.accIn := rfl
@[simp] theorem State.dedup_rssiLo (cand : Byte) : (s.dedup cand).rssiLo = s.rssiLo := rfl
@[simp] theorem State.dedup_rssiHi (cand : Byte) : (s.dedup cand).rssiHi = s.rssiHi := rfl
@[simp] theorem State.dedup_rx (cand : Byte) : (s.dedup cand).rx = s.rx := rfl
@[simp] theorem State.dedup_rxpRes (cand : Byte) : (s.dedup cand).rxpRes = s.rxpRes := rfl
@[simp] theorem State.dedup_rpt (cand : Byte) : (s.dedup cand).rpt = s.rpt := rfl
@[simp] theorem State.dedup_params (cand : Byte) : (s.dedup cand).params = s.params := rfl
@[simp] theorem State.dedup_port (cand : Byte) : (s.dedup cand).port = s.port := rfl
@[simp] theorem State.dedup_readData (cand : Byte) : (s.dedup cand).readData = s.readData := rfl

@[simp] theorem State.clearReport_fb : (s.clearReport).fb = s.fb := rfl
@[simp] theorem State.clearReport_status : (s.clearReport).status = statusSet (statusSet (statusSet (statusSet s.status .rptValid false) .typeErr false) .lenClamp false) .noData false := rfl
@[simp] theorem State.clearReport_cyc : (s.clearReport).cyc = s.cyc := rfl
@[simp] theorem State.clearReport_seqOut : (s.clearReport).seqOut = s.seqOut := rfl
@[simp] theorem State.clearReport_tx : (s.clearReport).tx = s.tx := rfl
@[simp] theorem State.clearReport_txPlen : (s.clearReport).txPlen = s.txPlen := rfl
@[simp] theorem State.clearReport_accIn : (s.clearReport).accIn = s.accIn := rfl
@[simp] theorem State.clearReport_rssiLo : (s.clearReport).rssiLo = s.rssiLo := rfl
@[simp] theorem State.clearReport_rssiHi : (s.clearReport).rssiHi = s.rssiHi := rfl
@[simp] theorem State.clearReport_rx : (s.clearReport).rx = s.rx := rfl
@[simp] theorem State.clearReport_rxpRes : (s.clearReport).rxpRes = s.rxpRes := rfl
@[simp] theorem State.clearReport_rpt : (s.clearReport).rpt = ReportRegs.zero := rfl
@[simp] theorem State.clearReport_params : (s.clearReport).params = s.params := rfl
@[simp] theorem State.clearReport_port : (s.clearReport).port = s.port := rfl
@[simp] theorem State.clearReport_readData : (s.clearReport).readData = s.readData := rfl

@[simp] theorem State.setRxpRes_fb (code : Byte) : (s.setRxpRes code).fb = s.fb := rfl
@[simp] theorem State.setRxpRes_status (code : Byte) : (s.setRxpRes code).status = s.status := rfl
@[simp] theorem State.setRxpRes_cyc (code : Byte) : (s.setRxpRes code).cyc = s.cyc := rfl
@[simp] theorem State.setRxpRes_seqOut (code : Byte) : (s.setRxpRes code).seqOut = s.seqOut := rfl
@[simp] theorem State.setRxpRes_tx (code : Byte) : (s.setRxpRes code).tx = s.tx := rfl
@[simp] theorem State.setRxpRes_txPlen (code : Byte) : (s.setRxpRes code).txPlen = s.txPlen := rfl
@[simp] theorem State.setRxpRes_accIn (code : Byte) : (s.setRxpRes code).accIn = s.accIn := rfl
@[simp] theorem State.setRxpRes_rssiLo (code : Byte) : (s.setRxpRes code).rssiLo = s.rssiLo := rfl
@[simp] theorem State.setRxpRes_rssiHi (code : Byte) : (s.setRxpRes code).rssiHi = s.rssiHi := rfl
@[simp] theorem State.setRxpRes_rx (code : Byte) : (s.setRxpRes code).rx = s.rx := rfl
@[simp] theorem State.setRxpRes_rxpRes (code : Byte) : (s.setRxpRes code).rxpRes = code := rfl
@[simp] theorem State.setRxpRes_rpt (code : Byte) : (s.setRxpRes code).rpt = s.rpt := rfl
@[simp] theorem State.setRxpRes_params (code : Byte) : (s.setRxpRes code).params = s.params := rfl
@[simp] theorem State.setRxpRes_port (code : Byte) : (s.setRxpRes code).port = s.port := rfl
@[simp] theorem State.setRxpRes_readData (code : Byte) : (s.setRxpRes code).readData = s.readData := rfl

@[simp] theorem State.badType_fb : (s.badType).fb = s.fb := rfl
@[simp] theorem State.badType_status : (s.badType).status = statusSet s.status .typeErr true := rfl
@[simp] theorem State.badType_cyc : (s.badType).cyc = s.cyc := rfl
@[simp] theorem State.badType_seqOut : (s.badType).seqOut = s.seqOut := rfl
@[simp] theorem State.badType_tx : (s.badType).tx = s.tx := rfl
@[simp] theorem State.badType_txPlen : (s.badType).txPlen = s.txPlen := rfl
@[simp] theorem State.badType_accIn : (s.badType).accIn = s.accIn := rfl
@[simp] theorem State.badType_rssiLo : (s.badType).rssiLo = s.rssiLo := rfl
@[simp] theorem State.badType_rssiHi : (s.badType).rssiHi = s.rssiHi := rfl
@[simp] theorem State.badType_rx : (s.badType).rx = s.rx := rfl
@[simp] theorem State.badType_rxpRes : (s.badType).rxpRes = 0x03#8 := rfl
@[simp] theorem State.badType_rpt : (s.badType).rpt = s.rpt := rfl
@[simp] theorem State.badType_params : (s.badType).params = s.params := rfl
@[simp] theorem State.badType_port : (s.badType).port = s.port := rfl
@[simp] theorem State.badType_readData : (s.badType).readData = s.readData := rfl

@[simp] theorem State.buildReport_fb : (s.buildReport).fb = s.fb := rfl
@[simp] theorem State.buildReport_status : (s.buildReport).status = statusSet (statusSet s.status .lenClamp (textCount s.params.lenConv s.rx.payload[3]).2) .rptValid true := rfl
@[simp] theorem State.buildReport_cyc : (s.buildReport).cyc = s.cyc := rfl
@[simp] theorem State.buildReport_seqOut : (s.buildReport).seqOut = s.seqOut := rfl
@[simp] theorem State.buildReport_tx : (s.buildReport).tx = s.tx := rfl
@[simp] theorem State.buildReport_txPlen : (s.buildReport).txPlen = s.txPlen := rfl
@[simp] theorem State.buildReport_accIn : (s.buildReport).accIn = s.accIn := rfl
@[simp] theorem State.buildReport_rssiLo : (s.buildReport).rssiLo = s.rssiLo := rfl
@[simp] theorem State.buildReport_rssiHi : (s.buildReport).rssiHi = s.rssiHi := rfl
@[simp] theorem State.buildReport_rx : (s.buildReport).rx = s.rx := rfl
@[simp] theorem State.buildReport_rxpRes : (s.buildReport).rxpRes = s.rxpRes := rfl
@[simp] theorem State.buildReport_params : (s.buildReport).params = s.params := rfl
@[simp] theorem State.buildReport_port : (s.buildReport).port = s.port := rfl
@[simp] theorem State.buildReport_readData : (s.buildReport).readData = s.readData := rfl

@[simp] theorem State.buildReport_id : s.buildReport.rpt.id = s.rx.peripheralId := rfl
@[simp] theorem State.buildReport_rssi : s.buildReport.rpt.rssi = rssiMag s.rssiValue := rfl
@[simp] theorem State.buildReport_len :
    s.buildReport.rpt.len = BitVec.ofNat 8 (textCount s.params.lenConv s.rx.payload[3]).1 := rfl
@[simp] theorem State.buildReport_decl : s.buildReport.rpt.decl = s.rx.payload[3] := rfl

/-- The text registers after a report is built: the text octets, then what was there before. -/
@[simp] theorem State.buildReport_text (k : Nat) (h : k < 5) : s.buildReport.rpt.text[k] =
    if k < (textCount s.params.lenConv s.rx.payload[3]).1 then s.rx.payload[4 + k] else s.rpt.text[k] := by
  simp [State.buildReport, State.setFlag]

/-- The raw octets after a report is built: frame bytes 3..5. -/
@[simp] theorem State.buildReport_aux (k : Nat) (h : k < 3) : s.buildReport.rpt.aux[k] = s.rx.payload[k] := by
  simp [State.buildReport, State.setFlag]

end Sys2Proof.Machine
end

