-- ==== Sys2Proof/Laws/Flags.lean ====
section
/-! SUPPORT. The laws of the STATUS bits: reading a bit after one was written, and writes of one bit as masks of the octet. -/

namespace Sys2Proof.Machine

/-- Reading a bit after a write: the value written for that bit, the old value for another. -/
theorem statusGet_statusSet (st : Byte) (f g : Flag) (b : Bool) :
    statusGet (statusSet st f b) g = if g = f then b else statusGet st g := by
  cases b <;> cases f <;> cases g <;> simp [statusGet, statusSet, Flag.mask, Flag.bit]

@[simp] theorem statusGet_statusSet_same (st : Byte) (f : Flag) (b : Bool) : statusGet (statusSet st f b) f = b := by
  simp [statusGet_statusSet]

@[simp] theorem statusGet_statusSet_of_ne (st : Byte) {f g : Flag} (b : Bool) (h : g ≠ f) :
    statusGet (statusSet st f b) g = statusGet st g := by
  simp [statusGet_statusSet, h]

@[simp] theorem State.flag_setFlag (s : State) (f g : Flag) (b : Bool) :
    (s.setFlag f b).flag g = if g = f then b else s.flag g :=
  statusGet_statusSet s.status f g b

@[simp] theorem State.flag_raise (s : State) (f g : Flag) : (s.raise f).flag g = if g = f then true else s.flag g :=
  statusGet_statusSet s.status f g true

@[simp] theorem State.flag_beginCommand (s : State) (g : Flag) :
    s.beginCommand.flag g = if g = .illCmd then false else s.flag g :=
  statusGet_statusSet s.status .illCmd g false

@[simp] theorem State.flag_loadRx (s : State) (g : Flag) : s.loadRx.flag g = if g = .decValid then true else s.flag g :=
  statusGet_statusSet s.status .decValid g true

@[simp] theorem State.flag_dedup (s : State) (cand : Byte) (g : Flag) :
    (s.dedup cand).flag g = if g = .accNew then !decide (cand = s.cyc) else s.flag g := by
  by_cases h : cand = s.cyc <;> simp [State.flag, statusGet_statusSet, acceptIfNew, h]

@[simp] theorem State.flag_clearReport (s : State) (g : Flag) : s.clearReport.flag g =
    if g = .rptValid ∨ g = .typeErr ∨ g = .lenClamp ∨ g = .noData then false else s.flag g := by
  cases g <;> simp [State.flag]

@[simp] theorem State.flag_setRxpRes (s : State) (code : Byte) (g : Flag) : (s.setRxpRes code).flag g = s.flag g := rfl

@[simp] theorem State.flag_badType (s : State) (g : Flag) : s.badType.flag g = if g = .typeErr then true else s.flag g :=
  statusGet_statusSet s.status .typeErr g true

@[simp] theorem State.flag_buildReport (s : State) (g : Flag) : s.buildReport.flag g =
    if g = .rptValid then true
    else if g = .lenClamp then (textCount s.params.lenConv s.rx.payload[3]).2 else s.flag g := by
  cases g <;> simp [State.flag]

/-- The bits of STATUS as bits of the octet (R23). -/
theorem statusGet_eq_getLsbD (st : Byte) (f : Flag) : statusGet st f = st.getLsbD f.bit := rfl

/-- Writing 1 to a bit, as a mask. -/
theorem statusSet_true (st : Byte) (f : Flag) : statusSet st f true = st ||| f.mask := rfl

/-- Writing 0 to a bit, as a mask. -/
theorem statusSet_false (st : Byte) (f : Flag) : statusSet st f false = st &&& ~~~f.mask := rfl

/-- Two STATUS octets with the same eight bits are one octet. -/
theorem status_ext {a b : Byte} (h : ∀ f : Flag, statusGet a f = statusGet b f) : a = b := by
  apply BitVec.eq_of_getLsbD_eq
  intro i hi
  have h0 := h .encErr
  have h1 := h .decValid
  have h2 := h .accNew
  have h3 := h .rptValid
  have h4 := h .typeErr
  have h5 := h .lenClamp
  have h6 := h .noData
  have h7 := h .illCmd
  simp only [statusGet, Flag.bit] at h0 h1 h2 h3 h4 h5 h6 h7
  have : i = 0 ∨ i = 1 ∨ i = 2 ∨ i = 3 ∨ i = 4 ∨ i = 5 ∨ i = 6 ∨ i = 7 := by omega
  rcases this with rfl | rfl | rfl | rfl | rfl | rfl | rfl | rfl <;> assumption

end Sys2Proof.Machine
end

