-- ==== Sys2Proof/Laws/Registers.lean ====
section
/-! SUPPORT. The laws of the register space: the map's addresses, what a port read returns at each of them, and what the port
reads after a register was stored. -/

namespace Sys2Proof

/-- The map gives every register its own address back (R20). -/
theorem Reg.ofAddr_addr (r : Reg) : Reg.ofAddr r.addr = some r := by
  cases r with
  | fb i => revert i; decide
  | txPay j => revert j; decide
  | rxPay j => revert j; decide
  | rptText k => revert k; decide
  | rptAux k => revert k; decide
  | _ => decide

/-- The register the map gives for an address has that address. -/
theorem Reg.addr_of_ofAddr : ∀ (a : Byte) (r : Reg), Reg.ofAddr a = some r → r.addr = a := by
  have h : ∀ a : Byte, (Reg.ofAddr a).all (fun r => r.addr == a) = true := by decide
  intro a r hr
  have := h a
  simpa [hr] using this

/-- No two registers share an address (R20). -/
theorem Reg.addr_injective {r q : Reg} (h : r.addr = q.addr) : r = q := by
  have := (Reg.ofAddr_addr r).symm.trans ((congrArg Reg.ofAddr h).trans (Reg.ofAddr_addr q))
  exact Option.some.inj this

/-- An address is reserved exactly from 0x39 on (R51). -/
theorem Reg.ofAddr_eq_none (a : Byte) : Reg.ofAddr a = none ↔ 0x39 ≤ a.toNat := by
  revert a; decide

namespace Machine

/-- A port read at a register's address returns the register's contents; CMD has none, and reads as 0x00 (R22, R100). -/
@[simp] theorem State.portRead_addr (s : State) (r : Reg) : s.portRead r.addr = s.reg r := by
  rw [State.portRead, Reg.ofAddr_addr]
  cases r <;> rfl

/-- A port read at a reserved address returns 0x00 (R52). -/
theorem State.portRead_reserved (s : State) {a : Byte} (h : 0x39 ≤ a.toNat) : s.portRead a = 0x00#8 := by
  rw [State.portRead, (Reg.ofAddr_eq_none a).2 h]

/-- Two states whose registers agree outside `changed` read alike at every address outside it. -/
theorem sameRegsExcept_of_reg {changed : List Byte} {s t : State}
    (h : ∀ r : Reg, r.addr ∉ changed → t.reg r = s.reg r) : SameRegsExcept changed s t := by
  intro a ha
  cases hr : Reg.ofAddr a with
  | none => simp [State.portRead, hr]
  | some r =>
    have hra := Reg.addr_of_ofAddr a r hr
    subst hra
    simpa using h r ha

/-- A port write at a register's address, by the register's access rights (R101). -/
theorem State.portWrite_addr (s : State) (r : Reg) (v : Byte) : s.portWrite r.addr v =
    match r.kind with
    | .rw => s.setReg r v
    | .wo => performCommand v s
    | .ro => s := by
  cases r <;> simp only [State.portWrite, Reg.ofAddr_addr] <;> rfl

/-- A port write at a reserved address is ignored (R52). -/
theorem State.portWrite_reserved (s : State) {a : Byte} (v : Byte) (h : 0x39 ≤ a.toNat) : s.portWrite a v = s := by
  rw [State.portWrite, (Reg.ofAddr_eq_none a).2 h]

/-- Storing a register the host may write changes that register and no other (R55). -/
theorem State.reg_setReg (s : State) (r q : Reg) (v : Byte) :
    (s.setReg r v).reg q = if q = r ∧ r.kind = .rw then v else s.reg q := by
  cases r <;> cases q <;> simp [State.setReg, State.reg, Reg.kind, Vector.getElem_set, Fin.ext_iff, eq_comm]

@[simp] theorem State.setReg_params (s : State) (r : Reg) (v : Byte) : (s.setReg r v).params = s.params := by
  cases r <;> rfl
@[simp] theorem State.setReg_port (s : State) (r : Reg) (v : Byte) : (s.setReg r v).port = s.port := by
  cases r <;> rfl
@[simp] theorem State.setReg_readData (s : State) (r : Reg) (v : Byte) : (s.setReg r v).readData = s.readData := by
  cases r <;> rfl

/-- A host store leaves the registers only commands write as they were (R53). -/
theorem State.setReg_readOnly (s : State) (r : Reg) (v : Byte) :
    (s.setReg r v).status = s.status ∧ (s.setReg r v).cyc = s.cyc ∧ (s.setReg r v).seqOut = s.seqOut ∧
    (s.setReg r v).rx = s.rx ∧ (s.setReg r v).rxpRes = s.rxpRes ∧ (s.setReg r v).rpt = s.rpt := by
  cases r <;> exact ⟨rfl, rfl, rfl, rfl, rfl, rfl⟩

/-- A port write outside CMD stores one register the host may write, or does nothing (R101). -/
theorem State.portWrite_cases (s : State) {a : Byte} (v : Byte) (h : a ≠ cmdAddr) :
    s.portWrite a v = s ∨ ∃ r : Reg, r.addr = a ∧ r.kind = .rw ∧ s.portWrite a v = s.setReg r v := by
  cases hr : Reg.ofAddr a with
  | none => left; simp [State.portWrite, hr]
  | some r =>
    have hra := Reg.addr_of_ofAddr a r hr
    subst hra
    cases hk : r.kind with
    | rw => right; exact ⟨r, rfl, hk, by simp [State.portWrite_addr, hk]⟩
    | ro => left; simp [State.portWrite_addr, hk]
    | wo => cases r <;> simp [Reg.kind] at hk; exact absurd rfl h

/-- A port write outside CMD leaves everything but the registers the host may write (R53, R55). -/
theorem State.portWrite_frame (s : State) {a : Byte} (v : Byte) (h : a ≠ cmdAddr) :
    (s.portWrite a v).status = s.status ∧ (s.portWrite a v).cyc = s.cyc ∧ (s.portWrite a v).seqOut = s.seqOut ∧
    (s.portWrite a v).rx = s.rx ∧ (s.portWrite a v).rxpRes = s.rxpRes ∧ (s.portWrite a v).rpt = s.rpt ∧
    (s.portWrite a v).params = s.params ∧ (s.portWrite a v).port = s.port ∧ (s.portWrite a v).readData = s.readData := by
  rcases s.portWrite_cases v h with h | ⟨r, -, -, h⟩ <;> rw [h]
  · exact ⟨rfl, rfl, rfl, rfl, rfl, rfl, rfl, rfl, rfl⟩
  · cases r <;> exact ⟨rfl, rfl, rfl, rfl, rfl, rfl, rfl, rfl, rfl⟩

end Machine

end Sys2Proof
end

