-- ==== Sys2Proof/Laws/Commands.lean ====
section
/-! SUPPORT. The laws of the pure functions of spec/41_frame_codec.md, 42_cycle_sequencer.md and 43_report_extractor.md, octet by
octet, and each command's paths. -/

namespace Sys2Proof.Machine

@[simp] theorem decodeFrame_cycle (W : Vector Byte 12) : (decodeFrame W).cycle = W[0] := rfl
@[simp] theorem decodeFrame_messageType (W : Vector Byte 12) : (decodeFrame W).messageType = W[1] := rfl
@[simp] theorem decodeFrame_peripheralId (W : Vector Byte 12) : (decodeFrame W).peripheralId = W[2] := rfl

/-- The decoded payload is frame bytes 3..11 (R113). -/
@[simp] theorem decodeFrame_payload (W : Vector Byte 12) (j : Nat) (h : j < 9) : (decodeFrame W).payload[j] = W[3 + j] := by
  simp [decodeFrame]

@[simp] theorem encodeFrame_cycle (c t p : Byte) (n : Nat) (P : Vector Byte 9) : (encodeFrame c t p n P)[0] = c := by
  simp [encodeFrame]
@[simp] theorem encodeFrame_messageType (c t p : Byte) (n : Nat) (P : Vector Byte 9) : (encodeFrame c t p n P)[1] = t := by
  simp [encodeFrame]
@[simp] theorem encodeFrame_peripheralId (c t p : Byte) (n : Nat) (P : Vector Byte 9) : (encodeFrame c t p n P)[2] = p := by
  simp [encodeFrame]

/-- The encoded payload: the first `n` octets, then 0x00 (R111). -/
@[simp] theorem encodeFrame_payload (c t p : Byte) (n : Nat) (P : Vector Byte 9) (j : Nat) (h : j < 9) :
    (encodeFrame c t p n P)[3 + j] = if j < n then P[j] else 0x00#8 := by
  have h1 : ¬ 3 + j = 1 := by omega
  have h2 : ¬ 3 + j = 2 := by omega
  simp [encodeFrame, h1, h2]

/-- The duplicate check, by its comparison (R123). -/
theorem acceptIfNew_eq (cand last : Byte) : acceptIfNew cand last = (decide (cand ≠ last), cand) := by
  by_cases h : cand = last <;> simp [acceptIfNew, h]

/-- The octets a declared length asks for, on naturals (R132). -/
theorem rawTextCount_eq (conv : LenConv) (L : Byte) : rawTextCount conv L = wantedText conv L := by
  cases conv with
  | exact => rfl
  | inclusive =>
    by_cases h : L = 0x00#8 <;> simp [rawTextCount, wantedText, h]

/-- At most TEXT_CAP text octets (R132). -/
theorem textCount_le (conv : LenConv) (L : Byte) : (textCount conv L).1 ≤ textCap := Nat.min_le_right _ _

/-- The magnitude fits its octet, so no bit of it is lost (R133). -/
theorem rssiMag_toNat (v : Int) : (rssiMag v).toNat = min v.natAbs 255 := by
  simp only [rssiMag, BitVec.toNat_ofNat]
  omega

/-- ENC beyond the payload capacity records the error and changes nothing else (R110). -/
theorem encCommand_of_gt (s : State) (h : s.txPlen.toNat > payloadCap) : encCommand s = s.beginCommand.raise .encErr := by
  simp [encCommand, h]

/-- ENC within the payload capacity writes the whole frame buffer (R110). -/
theorem encCommand_of_le (s : State) (h : ¬ s.txPlen.toNat > payloadCap) : encCommand s =
    { s.beginCommand.setFlag .encErr false with
      fb := encodeFrame s.tx.cycle s.tx.messageType s.tx.peripheralId s.txPlen.toNat s.tx.payload } := by
  simp [encCommand, h]

@[simp] theorem State.isResponse_beginCommand (s : State) : s.beginCommand.isResponse = s.isResponse := rfl
@[simp] theorem State.isResponse_clearReport (s : State) : s.clearReport.isResponse = s.isResponse := rfl
@[simp] theorem State.isResponse_dedup (s : State) (c : Byte) : (s.dedup c).isResponse = s.isResponse := rfl

/-- The type of the frame just loaded is frame byte 1 (R113, R130). -/
theorem State.isResponse_loadRx (s : State) : s.loadRx.isResponse = decide (s.fb[1] = s.params.mtResponseReport) := by
  simp [State.isResponse]
  rfl

/-- The decoded frame is the frame at the octets (R113). -/
theorem frameAt_decodeFrame (W : Vector Byte 12) : FrameAt W (decodeFrame W) :=
  ⟨rfl, rfl, rfl, fun j => by simp⟩

/-- Cleared report registers hold no report, and no other contents do (R135). -/
theorem noReport_iff (r : ReportRegs) : NoReport r ↔ r = ReportRegs.zero := by
  constructor
  · rintro ⟨hid, hrssi, hlen, htext, haux, hdecl⟩
    cases r
    simp only at hid hrssi hlen htext haux hdecl
    subst hid hrssi hlen hdecl
    simp only [ReportRegs.zero, ReportRegs.mk.injEq, true_and, and_true]
    constructor
    · apply Vector.ext
      intro i hi
      simpa using htext ⟨i, hi⟩
    · apply Vector.ext
      intro i hi
      simpa using haux ⟨i, hi⟩
  · rintro rfl
    unfold NoReport
    decide

/-- `build_report` on cleared report registers builds the report of the frame in RX, field by field (R134). -/
theorem State.buildReport_isReport (s : State) (hz : s.rpt = ReportRegs.zero) :
    IsReport s.params.lenConv s.rx s.rssiHi s.rssiLo s.buildReport.rpt
      (textCount s.params.lenConv s.rx.payload[3]).2 := by
  refine ⟨rfl, ?_, rfl, ?_, ?_, ?_, ?_⟩
  · simp [rssiMag_toNat, State.rssiValue]
  · simp [textCount, rawTextCount_eq, textCap]
  · intro k
    have hk : k.val < (textCount s.params.lenConv s.rx.payload[3]).1 ↔ k.val < wantedText s.params.lenConv s.rx.payload[3] := by
      simp [textCount, rawTextCount_eq, textCap]
    have ht : s.buildReport.rpt.text[k] = s.buildReport.rpt.text[k.val] := rfl
    rw [ht, State.buildReport_text, hz]
    simp only [hk]
    split
    · rfl
    · clear * -
      revert k
      decide
  · intro k
    simp
  · simp [textCount, rawTextCount_eq, textCap]

/-- ENC leaves everything but FB and STATUS (R110). -/
theorem encCommand_frame (s : State) : ∃ W st, encCommand s = { s with fb := W, status := st } := by
  by_cases h : s.txPlen.toNat > payloadCap
  · exact ⟨s.fb, _, encCommand_of_gt s h⟩
  · exact ⟨_, _, encCommand_of_le s h⟩

/-- The flags after ENC (R110). -/
theorem flag_encCommand (s : State) (g : Flag) : (encCommand s).flag g =
    if g = .encErr then decide (s.txPlen.toNat > payloadCap) else if g = .illCmd then false else s.flag g := by
  by_cases h : s.txPlen.toNat > payloadCap
  · rw [encCommand_of_gt s h]
    cases g <;> simp [h]
  · rw [encCommand_of_le s h]
    change (s.beginCommand.setFlag .encErr false).flag g = _
    cases g <;> simp [h]

/-- CYC after ACC is the candidate, new or not (R122, R123). -/
@[simp] theorem accCommand_cyc (s : State) : (accCommand s).cyc = s.accIn := by
  simp [accCommand, acceptIfNew_eq]

/-- The flags after ACC (R122). -/
theorem flag_accCommand (s : State) (g : Flag) : (accCommand s).flag g =
    if g = .accNew then !decide (s.accIn = s.cyc) else if g = .illCmd then false else s.flag g := by
  by_cases h : s.accIn = s.cyc <;> cases g <;> simp [accCommand, h]

/-- RPT takes one of three paths (R136). -/
theorem rptCommand_cases (s : State) :
    (s.flag .decValid = false ∧ rptCommand s = s.beginCommand.clearReport.raise .noData) ∨
    (s.flag .decValid = true ∧ s.isResponse = false ∧ rptCommand s = s.beginCommand.clearReport.raise .typeErr) ∨
    (s.flag .decValid = true ∧ s.isResponse = true ∧ rptCommand s = s.beginCommand.clearReport.buildReport) := by
  cases hd : s.flag .decValid <;> cases hr : s.isResponse <;> simp [rptCommand, hd, hr]

/-- RPT leaves everything but the report registers and STATUS (R136). -/
theorem rptCommand_frame (s : State) : ∃ r st, rptCommand s = { s with rpt := r, status := st } := by
  rcases rptCommand_cases s with ⟨-, h⟩ | ⟨-, -, h⟩ | ⟨-, -, h⟩ <;> exact ⟨_, _, h⟩

/-- The part of RXP from its duplicate check on takes one of three paths (R137). -/
theorem State.validate_cases (s : State) :
    (s.rx.cycle = s.cyc ∧ s.validate = (s.dedup s.rx.cycle).setRxpRes 0x02#8) ∨
    (s.rx.cycle ≠ s.cyc ∧ s.isResponse = false ∧ s.validate = (s.dedup s.rx.cycle).badType) ∨
    (s.rx.cycle ≠ s.cyc ∧ s.isResponse = true ∧ s.validate = (s.dedup s.rx.cycle).buildReport.setRxpRes 0x01#8) := by
  by_cases hc : s.rx.cycle = s.cyc <;> cases hr : s.isResponse <;> simp [State.validate, hc, hr]

/-- The state RXP makes its checks in: the frame decoded and the report cleared (R137). -/
abbrev State.received (s : State) : State := s.beginCommand.loadRx.clearReport

/-- RXP takes one of four paths: a bad type first, a duplicate, a bad type after CYC moved, a report (R137). -/
theorem rxpCommand_cases (s : State) :
    (s.params.rxpOrder = .typeFirst ∧ s.fb[1] ≠ s.params.mtResponseReport ∧ rxpCommand s = s.received.badType) ∨
    ((s.params.rxpOrder = .dedupFirst ∨ s.fb[1] = s.params.mtResponseReport) ∧ s.fb[0] = s.cyc ∧
      rxpCommand s = (s.received.dedup s.fb[0]).setRxpRes 0x02#8) ∨
    (s.params.rxpOrder = .dedupFirst ∧ s.fb[0] ≠ s.cyc ∧ s.fb[1] ≠ s.params.mtResponseReport ∧
      rxpCommand s = (s.received.dedup s.fb[0]).badType) ∨
    (s.fb[0] ≠ s.cyc ∧ s.fb[1] = s.params.mtResponseReport ∧
      rxpCommand s = (s.received.dedup s.fb[0]).buildReport.setRxpRes 0x01#8) := by
  have hv := s.received.validate_cases
  have hcyc : s.received.rx.cycle = s.fb[0] := rfl
  have hc : s.received.cyc = s.cyc := rfl
  have hr : s.received.isResponse = decide (s.fb[1] = s.params.mtResponseReport) := s.beginCommand.isResponse_loadRx
  rw [hcyc, hc, hr] at hv
  have hu : rxpCommand s = match s.params.rxpOrder with
    | .typeFirst => if s.received.isResponse = false then s.received.badType else s.received.validate
    | .dedupFirst => s.received.validate := rfl
  rw [hu, hr]
  by_cases hm : s.fb[1] = s.params.mtResponseReport <;> cases ho : s.params.rxpOrder <;> simp_all

/-- RXP leaves everything but RX, CYC, RXP_RES, the report registers and STATUS (R137). -/
theorem rxpCommand_frame (s : State) : ∃ c res r st, rxpCommand s =
    { s with rx := decodeFrame s.fb, cyc := c, rxpRes := res, rpt := r, status := st } := by
  rcases rxpCommand_cases s with ⟨-, -, h⟩ | ⟨-, -, h⟩ | ⟨-, -, -, h⟩ | ⟨-, -, h⟩ <;> exact ⟨_, _, _, _, h⟩

end Sys2Proof.Machine
end

