-- ==== Sys2Proof/Laws/Decode.lean ====
section
/-! SUPPORT. The fields of the words the encoder writes, and the command map on the command values. -/

namespace Sys2Proof

/-- Two octets with the same eight bits are one. -/
theorem byte_ext {a b : Byte} (h : ∀ i : Fin 8, a.getLsbD i.val = b.getLsbD i.val) : a = b :=
  BitVec.eq_of_getLsbD_eq fun i hi => h ⟨i, hi⟩

/-- T[16] of a write is 1. -/
@[simp] theorem wField_writeWord (a v : Byte) : wField (writeWord a v) = true := by
  simp [wField, writeWord]

/-- T[15:8] of a write is its address. -/
@[simp] theorem aField_writeWord (a v : Byte) : aField (writeWord a v) = a := by
  apply byte_ext
  intro i
  fin_cases i <;> simp [aField, writeWord]

/-- T[7:0] of a write is its data. -/
@[simp] theorem dField_writeWord (a v : Byte) : dField (writeWord a v) = v := by
  apply byte_ext
  intro i
  fin_cases i <;> simp [dField, writeWord]

/-- T[16] of a read is 0. -/
@[simp] theorem wField_readWord (a : Byte) : wField (readWord a) = false := by
  simp [wField, readWord]

/-- T[15:8] of a read is its address. -/
@[simp] theorem aField_readWord (a : Byte) : aField (readWord a) = a := by
  apply byte_ext
  intro i
  fin_cases i <;> simp [aField, readWord]

/-- T[7:0] of a read in its canonical spelling is 0x00. -/
@[simp] theorem dField_readWord (a : Byte) : dField (readWord a) = 0x00#8 := by
  apply byte_ext
  intro i
  fin_cases i <;> simp [dField, readWord]

/-- The A field as a number. -/
theorem aField_toNat (w : TxWord) : (aField w).toNat = w.toNat / 256 % 256 := by
  simp [aField, BitVec.extractLsb'_toNat, Nat.shiftRight_eq_div_pow]

/-- The D field as a number. -/
theorem dField_toNat (w : TxWord) : (dField w).toNat = w.toNat % 256 := by
  simp [dField, BitVec.extractLsb'_toNat]

/-- The W field as a comparison: it is the word's top bit. -/
theorem wField_eq (w : TxWord) : wField w = decide (0x10000 ≤ w.toNat) := by
  rw [wField, ← BitVec.msb_eq_getLsbD_last, BitVec.msb_eq_decide]

/-- A word is its three fields. -/
theorem word_toNat (w : TxWord) :
    w.toNat = (if wField w then 0x10000 else 0) + (aField w).toNat * 256 + (dField w).toNat := by
  have hw := w.isLt
  rw [aField_toNat, dField_toNat, wField_eq]
  by_cases h : 0x10000 ≤ w.toNat <;> simp [h] <;> omega

/-- Two words with the same three fields are one. -/
theorem word_ext {v w : TxWord} (h : wField v = wField w) (ha : aField v = aField w) (hd : dField v = dField w) : v = w := by
  apply BitVec.eq_of_toNat_eq
  rw [word_toNat v, word_toNat w, h, ha, hd]

/-- A reserved command value decodes to the reserved command (R76). -/
theorem decodeCommand_reserved : ∀ v : Byte, 7 ≤ v.toNat → decodeCommand v = .reservedCmd v := by decide

/-- A write of a value to CMD decodes to the command of that value (R78). -/
theorem decode_write_cmd (v : Byte) : decode (writeWord cmdAddr v) = decodeCommand v := by
  simp [decode]

end Sys2Proof
end

