-- ==== Sys2Proof/Laws/Step.lean ====
section
/-! SUPPORT. What exec and step can do, said once: each instruction's next state, the command a write to CMD performs, and the
three cases of a step. -/

namespace Sys2Proof.Machine

@[simp] theorem exec_rd (a : Byte) (s : State) : exec (.rd a) s = .next { s with readData := some (s.portRead a) } := rfl
@[simp] theorem exec_wr (a v : Byte) (s : State) : exec (.wr a v) s = .next (s.portWrite a v) := rfl
@[simp] theorem exec_nop (s : State) : exec .nop s = .next (nopCommand s) := rfl
@[simp] theorem exec_enc (s : State) : exec .enc s = .next (encCommand s) := rfl
@[simp] theorem exec_dec (s : State) : exec .dec s = .next (decCommand s) := rfl
@[simp] theorem exec_nxt (s : State) : exec .nxt s = .next (nxtCommand s) := rfl
@[simp] theorem exec_acc (s : State) : exec .acc s = .next (accCommand s) := rfl
@[simp] theorem exec_rpt (s : State) : exec .rpt s = .next (rptCommand s) := rfl
@[simp] theorem exec_rxp (s : State) : exec .rxp s = .next (rxpCommand s) := rfl
@[simp] theorem exec_reservedCmd (v : Byte) (s : State) : exec (.reservedCmd v) s = .next (reservedCommand v s) := rfl

/-- The command value selects the same command at the port as in the decoder (R75, R104). -/
theorem exec_decodeCommand (v : Byte) (s : State) : exec (decodeCommand v) s = .next (performCommand v s) := by
  unfold decodeCommand performCommand
  split <;> simp_all

/-- Every instruction leads to a next state, and here it is once for all of them. -/
theorem exec_total (i : Instr) (s : State) : ∃ t, exec i s = .next t := by
  cases i <;> exact ⟨_, rfl⟩

theorem step_nil {s : State} (h : s.port = []) : step s = .next s := by simp [step, h]

theorem step_transaction {s : State} {w : TxWord} {rest : List HostEvent} (h : s.port = .transaction w :: rest) :
    step s = exec (decode w) { s with port := rest } := by simp [step, h]

theorem step_reset {s : State} {rest : List HostEvent} (h : s.port = .reset :: rest) :
    step s = .next (State.afterReset { s with port := rest }) := by simp [step, h]

/-- A step that answers a next state is idle, a transaction or a reset. -/
theorem step_cases {s t : State} (h : step s = .next t) :
    (s.port = [] ∧ t = s) ∨
    (∃ w rest, s.port = .transaction w :: rest ∧ exec (decode w) { s with port := rest } = .next t) ∨
    (∃ rest, s.port = .reset :: rest ∧ t = State.afterReset { s with port := rest }) := by
  cases hp : s.port with
  | nil => left; rw [step_nil hp] at h; exact ⟨rfl, by cases h; rfl⟩
  | cons e rest =>
    cases e with
    | transaction w => right; left; exact ⟨w, rest, rfl, by rw [← step_transaction hp]; exact h⟩
    | reset => right; right; rw [step_reset hp] at h; exact ⟨rest, rfl, by cases h; rfl⟩

end Sys2Proof.Machine
end

