-- ==== Sys2Proof/Laws/Host.lean ====
section
/-! SUPPORT. What the host's sequences of transactions come to (spec/60_exceptions.md R161, R162). -/

namespace Sys2Proof.Machine

/-- RD at a register's address. -/
theorem exec_rd_reg (r : Reg) (s : State) : exec (.rd r.addr) s = .next { s with readData := some (s.reg r) } := by
  rw [exec_rd, State.portRead_addr]

/-- WR at the address of a register the host may write. -/
theorem exec_wr_reg (r : Reg) (v : Byte) (s : State) (h : r.kind = .rw) : exec (.wr r.addr v) s = .next (s.setReg r v) := by
  rw [exec_wr, State.portWrite_addr, h]

/-- The second sequence starts where the first one ended. -/
theorem execAll_append (is js : List Instr) (s t : State) (h : execAll is s = .next t) :
    execAll (is ++ js) s = execAll js t := by
  induction is generalizing s with
  | nil =>
    simp only [execAll, Host.Outcome.next.injEq] at h
    rw [h, List.nil_append]
  | cons i is ih =>
    obtain ⟨u, hu⟩ := exec_total i s
    simp only [execAll, hu, List.cons_append] at h ⊢
    exact ih u h

/-- Twelve writes put a whole packet into FB. -/
theorem execAll_write_fb (W : Vector Byte 12) (s : State) :
    execAll ((List.finRange 12).map fun i => .wr (Reg.fb i).addr W[i]) s = .next { s with fb := W } := by
  simp only [List.finRange, List.ofFn, Fin.foldr, Fin.foldr.loop, List.map, execAll, exec_wr, State.portWrite_addr, Reg.kind,
    State.setReg]
  congr 2
  apply Vector.ext
  intro i hi
  simp only [Vector.getElem_set]
  have : i = 0 ∨ i = 1 ∨ i = 2 ∨ i = 3 ∨ i = 4 ∨ i = 5 ∨ i = 6 ∨ i = 7 ∨ i = 8 ∨ i = 9 ∨ i = 10 ∨ i = 11 := by omega
  rcases this with rfl | rfl | rfl | rfl | rfl | rfl | rfl | rfl | rfl | rfl | rfl | rfl <;> simp

/-- Nine writes put a whole payload into TX_PAY. -/
theorem execAll_write_txPay (P : Vector Byte 9) (s : State) :
    execAll ((List.finRange 9).map fun j => .wr (Reg.txPay j).addr P[j]) s =
      .next { s with tx := { s.tx with payload := P } } := by
  simp only [List.finRange, List.ofFn, Fin.foldr, Fin.foldr.loop, List.map, execAll, exec_wr, State.portWrite_addr, Reg.kind,
    State.setReg]
  congr 3
  apply Vector.ext
  intro i hi
  simp only [Vector.getElem_set]
  have : i = 0 ∨ i = 1 ∨ i = 2 ∨ i = 3 ∨ i = 4 ∨ i = 5 ∨ i = 6 ∨ i = 7 ∨ i = 8 := by omega
  rcases this with rfl | rfl | rfl | rfl | rfl | rfl | rfl | rfl | rfl <;> simp

/-- The request's writes and ENC: ENC of the request's fields (R161). -/
theorem execAll_requestInstrs (p : Params) (c target plen : Byte) (P : Vector Byte 9) (s : State) :
    execAll (requestInstrs p c target plen P) s = .next (encCommand { s with
      tx := { cycle := c, messageType := p.mtRequestReport, peripheralId := target, payload := P }, txPlen := plen }) := by
  unfold requestInstrs
  rw [List.append_assoc, execAll_append _ _ s { s with
    tx := { cycle := c, messageType := p.mtRequestReport, peripheralId := target, payload := s.tx.payload }, txPlen := plen }]
  · rw [execAll_append _ _ _ _ (execAll_write_txPay P _)]
    rfl
  · simp only [execAll, exec_wr, State.portWrite_addr, Reg.kind, State.setReg]

/-- The packet's writes and RXP: RXP with the packet in FB and its RSSI in place (R162). -/
theorem execAll_receiveInstrs (W : Vector Byte 12) (rssi : BitVec 16) (is : List Instr) (s : State) :
    execAll (receiveInstrs W rssi ++ is) s = execAll is (rxpCommand { s with
      fb := W, rssiLo := rssi.extractLsb' 0 8, rssiHi := rssi.extractLsb' 8 8 }) := by
  unfold receiveInstrs
  rw [List.append_assoc, execAll_append _ _ _ _ (execAll_write_fb W s)]
  simp only [execAll, exec_wr, State.portWrite_addr, Reg.kind, State.setReg, List.cons_append, List.nil_append, exec_rxp]

/-- Reading FB0 to FB11 gives the frame and changes no register. -/
theorem readAll_fbAddrs (s : State) : ∃ u, readAll fbAddrs s = .next ({ s with readData := u }, s.fb.toList) := by
  refine ⟨some s.fb[11], ?_⟩
  simp only [fbAddrs, List.finRange, List.ofFn, Fin.foldr, Fin.foldr.loop, List.map, readAll, exec_rd_reg, State.reg]
  congr 2
  apply List.ext_getElem
  · simp
  · intro i h1 h2
    simp at h2
    have : i = 0 ∨ i = 1 ∨ i = 2 ∨ i = 3 ∨ i = 4 ∨ i = 5 ∨ i = 6 ∨ i = 7 ∨ i = 8 ∨ i = 9 ∨ i = 10 ∨ i = 11 := by omega
    rcases this with rfl | rfl | rfl | rfl | rfl | rfl | rfl | rfl | rfl | rfl | rfl | rfl <;> simp

/-- Reading the report registers gives their octets and changes no register. -/
theorem readAll_reportAddrs (s : State) : ∃ u, readAll reportAddrs s =
    .next ({ s with readData := u }, [s.rpt.id, s.rpt.rssi, s.rpt.len] ++ s.rpt.text.toList) := by
  refine ⟨some s.rpt.text[4], ?_⟩
  simp only [reportAddrs, List.finRange, List.ofFn, Fin.foldr, Fin.foldr.loop, List.map, readAll, exec_rd_reg, State.reg,
    List.cons_append, List.nil_append]
  congr 2
  rw [show s.rpt.text.toList = [s.rpt.text[0], s.rpt.text[1], s.rpt.text[2], s.rpt.text[3], s.rpt.text[4]] from ?_]
  · rfl
  apply List.ext_getElem
  · simp
  · intro i h1 h2
    simp at h2
    have : i = 0 ∨ i = 1 ∨ i = 2 ∨ i = 3 ∨ i = 4 := by omega
    rcases this with rfl | rfl | rfl | rfl | rfl <;> simp

end Sys2Proof.Machine
end

