-- ==== Sys2Proof/Laws/PerInstr.lean ====
section
/-! SUPPORT. The statement made per instruction: the W bit of an instruction's word says whether it writes. -/

namespace Sys2Proof.Laws.WriteBit

/-- The word of an instruction has W = 0 exactly for a read (R77: W is 1 for a write, and every command is a write to CMD). -/
def Statement (i : Instr) : Prop := wField (encode i) = true ↔ ∀ a, i ≠ .rd a

theorem rd (a : Byte) : Statement (.rd a) := by simp [Statement, encode]
theorem wr (a v : Byte) : Statement (.wr a v) := by simp [Statement, encode]
theorem nop : Statement .nop := by simp [Statement, encode]
theorem enc : Statement .enc := by simp [Statement, encode]
theorem dec : Statement .dec := by simp [Statement, encode]
theorem nxt : Statement .nxt := by simp [Statement, encode]
theorem acc : Statement .acc := by simp [Statement, encode]
theorem rpt : Statement .rpt := by simp [Statement, encode]
theorem rxp : Statement .rxp := by simp [Statement, encode]
theorem reservedCmd (v : Byte) : Statement (.reservedCmd v) := by simp [Statement, encode]

end Sys2Proof.Laws.WriteBit
end

