-- ==== Sys2Proof/Machine/Assembler.lean ====
section
/-! DEFINITION. The spec's assembly language (spec/30_encoding.md R81, R82): its statements, the transaction words each stands
for, and the reading of its text. It is notation (decision D36): no step of the machine depends on it (DESIGN CHOICE, safe:
notes/assumptions/17). -/

namespace Sys2Proof.Machine

/-- A statement of the assembly language: the two base statements (R81) and the pseudo-instructions (R82). -/
inductive AsmStmt where
  /-- `rd <addr>`, with the optional annotation `=> <expected>`, which has no encoding. -/
  | rd (a : Byte) (expected : Option Byte)
  | wr (a v : Byte)
  | nop
  | enc
  | dec
  | nxt
  | acc
  | rpt
  | rxp
  | cmd (v : Byte)
  /-- `rssi <n>`, n from -32768 to 32767. -/
  | rssi (n : Int)
  /-- `frame b0, ..., b11`. -/
  | frame (b : Vector Byte 12)
  /-- `txpay p0, ..., pk`, k at most 8. -/
  | txpay (p : List Byte)
deriving DecidableEq, Repr

/-- Why a text is no statement of the language. -/
inductive AsmError where
  /-- The line begins with no statement of R81 or R82. -/
  | unknownStatement
  /-- The statement has too few or too many operands. -/
  | operandCount
  /-- An operand is no number and no register name, or a number its place does not admit. -/
  | badOperand
deriving DecidableEq, Repr

/-- The words of `wr a, v`, `wr (a+1), v'`, ... for consecutive addresses from `a`. -/
def writeWords (a : Nat) : List Byte → List TxWord
  | [] => []
  | v :: rest => writeWord (BitVec.ofNat 8 a) v :: writeWords (a + 1) rest

/-- The transaction words of a statement, in order (R81, R82). -/
def assemble : AsmStmt → Except AsmError (List TxWord)
  | .rd a _ => .ok [readWord a]
  | .wr a v => .ok [writeWord a v]
  | .nop => .ok [writeWord cmdAddr 0x00#8]
  | .enc => .ok [writeWord cmdAddr 0x01#8]
  | .dec => .ok [writeWord cmdAddr 0x02#8]
  | .nxt => .ok [writeWord cmdAddr 0x03#8]
  | .acc => .ok [writeWord cmdAddr 0x04#8]
  | .rpt => .ok [writeWord cmdAddr 0x05#8]
  | .rxp => .ok [writeWord cmdAddr 0x06#8]
  | .cmd v => .ok [writeWord cmdAddr v]
  | .rssi n =>
    if -32768 ≤ n ∧ n ≤ 32767 then
      let w := BitVec.ofInt 16 n
      .ok [writeWord Reg.rssiLo.addr (w.extractLsb' 0 8), writeWord Reg.rssiHi.addr (w.extractLsb' 8 8)]
    else .error .badOperand
  | .frame b => .ok (writeWords (Reg.fb 0).addr.toNat b.toList)
  | .txpay p =>
    if 1 ≤ p.length ∧ p.length ≤ payloadCap then
      .ok (writeWords (Reg.txPay 0).addr.toNat p ++ [writeWord Reg.txPlen.addr (BitVec.ofNat 8 p.length)])
    else .error .operandCount

/-- The name of a register (R20), an array element's index in decimal (R81: `FB6`, `TX_PAY0`, `RPT_TEXT4`). -/
def regAsmName : Reg → List Char
  | .fb i => "FB".toList ++ Nat.toDigits 10 i.val
  | .cmd => "CMD".toList
  | .status => "STATUS".toList
  | .cyc => "CYC".toList
  | .seqOut => "SEQ_OUT".toList
  | .txCyc => "TX_CYC".toList
  | .txType => "TX_TYPE".toList
  | .txId => "TX_ID".toList
  | .txPlen => "TX_PLEN".toList
  | .txPay j => "TX_PAY".toList ++ Nat.toDigits 10 j.val
  | .accIn => "ACC_IN".toList
  | .rssiLo => "RSSI_LO".toList
  | .rssiHi => "RSSI_HI".toList
  | .rxCyc => "RX_CYC".toList
  | .rxType => "RX_TYPE".toList
  | .rxId => "RX_ID".toList
  | .rxPay j => "RX_PAY".toList ++ Nat.toDigits 10 j.val
  | .rxpRes => "RXP_RES".toList
  | .rptId => "RPT_ID".toList
  | .rptRssi => "RPT_RSSI".toList
  | .rptLen => "RPT_LEN".toList
  | .rptText k => "RPT_TEXT".toList ++ Nat.toDigits 10 k.val
  | .rptAux k => "RPT_AUX".toList ++ Nat.toDigits 10 k.val
  | .rptDecl => "RPT_DECL".toList

/-- The value of a digit in a base of at most 16. -/
def digitValue (base : Nat) (c : Char) : Option Nat :=
  let n := c.toNat
  let d := if 48 ≤ n ∧ n ≤ 57 then n - 48 else if 65 ≤ n ∧ n ≤ 70 then n - 55 else if 97 ≤ n ∧ n ≤ 102 then n - 87 else base
  if d < base then some d else none

/-- A run of digits after the value `acc` read so far. -/
def digitsValue (base : Nat) : Nat → List Char → Option Nat
  | acc, [] => some acc
  | acc, c :: rest =>
    match digitValue base c with
    | some d => digitsValue base (acc * base + d) rest
    | none => none

/-- A number: hexadecimal with `0x`, or decimal (R81). -/
def parseNat : List Char → Option Nat
  | [] => none
  | '0' :: 'x' :: c :: rest => digitsValue 16 0 (c :: rest)
  | c :: rest => digitsValue 10 0 (c :: rest)

/-- A signed integer, for `rssi` (R82). -/
def parseInt : List Char → Option Int
  | '-' :: rest => (parseNat rest).map fun n => -(n : Int)
  | cs => (parseNat cs).map fun n => (n : Int)

/-- An octet operand. -/
def parseByte (cs : List Char) : Except AsmError Byte :=
  match parseNat cs with
  | some n => if n < 256 then .ok (BitVec.ofNat 8 n) else .error .badOperand
  | none => .error .badOperand

/-- An address operand: a register's name or a number (R81). -/
def parseAddr (cs : List Char) : Except AsmError Byte :=
  match Reg.map.find? (fun r => regAsmName r == cs) with
  | some r => .ok r.addr
  | none => parseByte cs

/-- Octet operands, each in its place. -/
def parseBytes : List (List Char) → Except AsmError (List Byte)
  | [] => .ok []
  | cs :: rest =>
    match parseByte cs, parseBytes rest with
    | .ok b, .ok bs => .ok (b :: bs)
    | .error e, _ => .error e
    | _, .error e => .error e

/-- The words of a line between blanks and commas; `cur` is the word being read, reversed. -/
def tokens : List Char → List Char → List (List Char)
  | cur, [] => if cur.isEmpty then [] else [cur.reverse]
  | cur, c :: rest =>
    if c = ' ' ∨ c = ',' ∨ c = '\t' ∨ c = '\r' then
      if cur.isEmpty then tokens [] rest else cur.reverse :: tokens [] rest
    else tokens (c :: cur) rest

/-- The statement named by a line's first word, from the words after it (R81, R82). -/
def parseStmt (name : List Char) (ops : List (List Char)) : Except AsmError AsmStmt :=
  if name = "rd".toList then
    match ops with
    | [a] => (parseAddr a).map fun a => .rd a none
    | [a, arrow, e] =>
      if arrow = "=>".toList then
        match parseAddr a, parseByte e with
        | .ok a, .ok e => .ok (.rd a (some e))
        | .error x, _ => .error x
        | _, .error x => .error x
      else .error .operandCount
    | _ => .error .operandCount
  else if name = "wr".toList then
    match ops with
    | [a, v] =>
      match parseAddr a, parseByte v with
      | .ok a, .ok v => .ok (.wr a v)
      | .error x, _ => .error x
      | _, .error x => .error x
    | _ => .error .operandCount
  else if name = "cmd".toList then
    match ops with
    | [v] => (parseByte v).map .cmd
    | _ => .error .operandCount
  else if name = "rssi".toList then
    match ops with
    | [n] =>
      match parseInt n with
      | some n => .ok (.rssi n)
      | none => .error .badOperand
    | _ => .error .operandCount
  else if name = "frame".toList then
    match parseBytes ops with
    | .ok [b0, b1, b2, b3, b4, b5, b6, b7, b8, b9, b10, b11] =>
      .ok (.frame #v[b0, b1, b2, b3, b4, b5, b6, b7, b8, b9, b10, b11])
    | .ok _ => .error .operandCount
    | .error x => .error x
  else if name = "txpay".toList then (parseBytes ops).map .txpay
  else if ops ≠ [] then .error .operandCount
  else if name = "nop".toList then .ok .nop
  else if name = "enc".toList then .ok .enc
  else if name = "dec".toList then .ok .dec
  else if name = "nxt".toList then .ok .nxt
  else if name = "acc".toList then .ok .acc
  else if name = "rpt".toList then .ok .rpt
  else if name = "rxp".toList then .ok .rxp
  else .error .unknownStatement

/-- One line: its statement before any `;`, or none on a blank line (R81). -/
def parseLine (line : List Char) : Except AsmError (Option AsmStmt) :=
  match tokens [] (line.takeWhile (· != ';')) with
  | [] => .ok none
  | name :: ops => (parseStmt name ops).map some

/-- The transaction words of a program's lines, in order. -/
def assembleLines : List String → Except AsmError (List TxWord)
  | [] => .ok []
  | line :: rest =>
    match parseLine line.toList, assembleLines rest with
    | .error e, _ => .error e
    | _, .error e => .error e
    | .ok none, .ok ws => .ok ws
    | .ok (some st), .ok ws =>
      match assemble st with
      | .ok w => .ok (w ++ ws)
      | .error e => .error e

end Sys2Proof.Machine
end

