-- ==== Sys2Proof/Tests/Slice0.lean ====
section
/-! SUPPORT. Tests whose expected values are the spec's own (spec/95_test_vectors.md and the examples in the rules), and a witness
for every statement that has hypotheses. The message-type codes 0x01 and 0x02 are the test binding of R6. -/

namespace Sys2Proof.Tests

open Sys2Proof Sys2Proof.Machine

/-- The test binding of spec/95_test_vectors.md. -/
def testParams : Params :=
  { mtRequestReport := 0x01#8, mtResponseReport := 0x02#8, lenConv := .exact, rxpOrder := .dedupFirst, cycReset := 0x63#8 }

/-- "Reset" of the test vectors. -/
def start : State := State.resetWith testParams

/-- The same block built with TYPE_FIRST and INCLUSIVE. -/
def startTypeFirst : State := State.resetWith { testParams with rxpOrder := .typeFirst, lenConv := .inclusive }

/-- The next state, if the outcome is one. -/
def nextOf {α φ ρ : Type} : Host.Outcome α φ ρ → Option α
  | .next s => some s
  | .fault _ => none
  | .refused _ => none

/-- The packet of program P2: 07 02 FF 00 00 00 03 34 32 43 00 00. -/
def packet42C : Vector Byte 12 := #v[0x07, 0x02, 0xFF, 0x00, 0x00, 0x00, 0x03, 0x34, 0x32, 0x43, 0x00, 0x00]

/-- The state before the first `rxp` of program P2, where CYC is 0x64 and the RSSI is -70. -/
def beforeRxp : State := { start with fb := packet42C, cyc := 0x64, rssiLo := 0xBA, rssiHi := 0xFF }

/-- The same frame after `dec`, as in the example of R136. -/
def beforeRpt : State := { beforeRxp with rx := decodeFrame packet42C, status := 0x02 }

/-- The start of vectors C1 to C5: TX holds AB CD EF and 11 to 99. -/
def beforeEnc : State :=
  { start with tx := { cycle := 0xAB, messageType := 0xCD, peripheralId := 0xEF,
                       payload := #v[0x11, 0x22, 0x33, 0x44, 0x55, 0x66, 0x77, 0x88, 0x99] } }

/-! ### Well-formedness -/

theorem test_wf_refuses_write_to_cmd : (Instr.wr 0x0C 0x01).wf = false := by decide
theorem test_wf_refuses_defined_command_as_reserved : (Instr.reservedCmd 0x06).wf = false := by decide
theorem test_wf_accepts_the_neighbours :
    (Instr.wr 0x0B 0x01).wf = true ∧ (Instr.wr 0x0D 0x01).wf = true ∧ (Instr.reservedCmd 0x07).wf = true := by decide

/-! ### Decoding and encoding: words written out from R75, R77 and the opcode table -/

theorem test_decode_rd : decode 0b0_00001110_00000000#17 = .rd 0x0E ∧ decode 0b0_00001110_11111111#17 = .rd 0x0E := by decide
theorem test_decode_wr : decode 0b1_00010010_11111111#17 = .wr 0x12 0xFF := by decide
theorem test_decode_nop : decode 0b1_00001100_00000000#17 = .nop := by decide
theorem test_decode_enc : decode 0b1_00001100_00000001#17 = .enc := by decide
theorem test_decode_dec : decode 0b1_00001100_00000010#17 = .dec := by decide
theorem test_decode_nxt : decode 0b1_00001100_00000011#17 = .nxt := by decide
theorem test_decode_acc : decode 0b1_00001100_00000100#17 = .acc := by decide
theorem test_decode_rpt : decode 0b1_00001100_00000101#17 = .rpt := by decide
theorem test_decode_rxp : decode 0b1_00001100_00000110#17 = .rxp := by decide
theorem test_decode_reservedCmd :
    decode 0b1_00001100_00000111#17 = .reservedCmd 0x07 ∧ decode 0b1_00001100_11111111#17 = .reservedCmd 0xFF := by decide

theorem test_encode_examples : encode (.rd 0x0E) = 0x00E00#17 ∧ encode (.wr 0x12 0xFF) = 0x112FF#17 := by decide

theorem test_decodeTableWord_rejects_wide_numbers :
    decodeTableWord 24 0x20000 = none ∧ decodeTableWord 24 0x1FFFF = some (.wr 0xFF 0xFF) := by decide

/-- The corners of the register map of R20. -/
theorem test_register_map :
    Reg.ofAddr 0x0B = some (.fb 11) ∧ Reg.ofAddr 0x0C = some .cmd ∧ Reg.ofAddr 0x14 = some (.txPay 0) ∧
    Reg.ofAddr 0x1F = some .rssiHi ∧ Reg.ofAddr 0x2B = some (.rxPay 8) ∧ Reg.ofAddr 0x34 = some (.rptText 4) ∧
    Reg.ofAddr 0x38 = some .rptDecl ∧ Reg.ofAddr 0x39 = none ∧ Reg.ofAddr 0xFF = none := by decide

/-! ### One step of each instruction -/

/-- Vector L1-11, and vector B1 on a read of CMD. -/
theorem test_rd : (nextOf (exec (.rd 0x0E) start)).map State.readData = some (some 0x63) ∧
    (nextOf (exec (.rd 0x0C) { start with status := 0xFF })).map State.readData = some (some 0x00) := by decide

/-- The example of R101. -/
theorem test_wr : nextOf (exec (.wr 0x12 0xFF) start) =
    some { start with tx := { Frame.zero with peripheralId := 0xFF } } := by decide

/-- Vectors B3 and B5. -/
theorem test_wr_ignored : nextOf (exec (.wr 0x0E 0x00) start) = some start ∧
    nextOf (exec (.wr 0x80 0x12) start) = some start := by decide

/-- Vector B10. -/
theorem test_nop : nextOf (exec .nop { start with status := 0x82 }) = some { start with status := 0x02 } := by decide

/-- Vectors B8 and B9. -/
theorem test_reservedCmd :
    nextOf (exec (.reservedCmd 0x07) { start with status := 0x02 }) = some { start with status := 0x82 } ∧
    nextOf (exec (.reservedCmd 0xFF) { start with status := 0x82 }) = some { start with status := 0x82 } := by decide

/-- Vector C1. -/
theorem test_enc_pads : (nextOf (exec .enc { beforeEnc with txPlen := 3 })).map (fun t => (t.fb, t.status)) =
    some (#v[0xAB, 0xCD, 0xEF, 0x11, 0x22, 0x33, 0, 0, 0, 0, 0, 0], 0x00) := by decide

/-- Vector C3. -/
theorem test_enc_over_capacity : nextOf (exec .enc { beforeEnc with txPlen := 10, fb := packet42C }) =
    some { beforeEnc with txPlen := 10, fb := packet42C, status := 0x01 } := by decide

/-- The example of R112. -/
theorem test_dec : (nextOf (exec .dec { start with fb := packet42C })).map (fun t => (t.rx, t.status)) =
    some ({ cycle := 0x07, messageType := 0x02, peripheralId := 0xFF,
            payload := #v[0x00, 0x00, 0x00, 0x03, 0x34, 0x32, 0x43, 0x00, 0x00] }, 0x02) := by decide

/-- Vectors S1 and S2. -/
theorem test_nxt : nextOf (exec .nxt start) = some { start with cyc := 0x64, seqOut := 0x64 } ∧
    nextOf (exec .nxt { start with cyc := 0xFF, status := 0x04 }) =
      some { start with cyc := 0x00, seqOut := 0x00, status := 0x04 } := by decide

/-- Vectors S4 and S7. -/
theorem test_acc :
    (nextOf (exec .acc { start with accIn := 0x63, status := 0x04 })).map (fun t => (t.cyc, t.status)) = some (0x63, 0x00) ∧
    (nextOf (exec .acc { start with cyc := 0x09, accIn := 0x05 })).map (fun t => (t.cyc, t.status)) = some (0x05, 0x04) := by
  decide

/-- The example of R136. -/
theorem test_rpt : (nextOf (exec .rpt beforeRpt)).map (fun t => (t.rpt, t.status)) =
    some ({ id := 0xFF, rssi := 0x46, len := 3, text := #v[0x34, 0x32, 0x43, 0, 0], aux := #v[0, 0, 0], decl := 0x03 },
      0x0A) := by decide

/-- Vectors R1 and R5. -/
theorem test_rpt_errors : (nextOf (exec .rpt start)).map State.status = some 0x40 ∧
    (nextOf (exec .rpt { beforeRpt with status := 0x0A, rx := { beforeRpt.rx with messageType := 0x01 },
                                        rpt := { ReportRegs.zero with len := 3 } })).map (fun t => (t.rpt, t.status)) =
      some (ReportRegs.zero, 0x12) := by decide

/-- Program P2, the first `rxp`. -/
theorem test_rxp : (nextOf (exec .rxp beforeRxp)).map (fun t => (t.cyc, t.rxpRes, t.status, t.rpt.rssi, t.rpt.text)) =
    some (0x07, 0x01, 0x0E, 0x46, #v[0x34, 0x32, 0x43, 0x00, 0x00]) := by decide

/-- Vectors V5, V2 and V3: a duplicate of another type, a new frame of another type, and that under TYPE_FIRST. -/
theorem test_rxp_rejects :
    (nextOf (exec .rxp { start with fb := packet42C.set 1 0x01, cyc := 0x07 })).map (fun t => (t.cyc, t.rxpRes, t.status)) =
      some (0x07, 0x02, 0x02) ∧
    (nextOf (exec .rxp { start with fb := packet42C.set 1 0x01, cyc := 0x64 })).map (fun t => (t.cyc, t.rxpRes, t.status)) =
      some (0x07, 0x03, 0x16) ∧
    (nextOf (exec .rxp { startTypeFirst with fb := packet42C.set 1 0x01, cyc := 0x64 })).map
      (fun t => (t.cyc, t.rxpRes, t.status)) = some (0x64, 0x03, 0x12) := by decide

/-- The text length table of section 2.4, EXACT then INCLUSIVE, for L = 0, 1, 5, 6, 7, 255. -/
theorem test_text_count :
    [0x00, 0x01, 0x05, 0x06, 0x07, 0xFF].map (textCount .exact) =
      [(0, false), (1, false), (5, false), (5, true), (5, true), (5, true)] ∧
    [0x00, 0x01, 0x05, 0x06, 0x07, 0xFF].map (textCount .inclusive) =
      [(0, false), (0, false), (4, false), (5, false), (5, true), (5, true)] := by decide

/-- The RSSI table of section 2.4, as RSSI_HI and RSSI_LO. -/
theorem test_rssi :
    ([(0x00, 0x00), (0xFF, 0xFF), (0xFF, 0xBA), (0xFF, 0x80), (0xFF, 0x5C), (0xFF, 0x01), (0xFF, 0x00), (0x80, 0x00),
      (0x00, 0x05), (0x00, 0xFF), (0x01, 0x00), (0x01, 0x2C), (0x7F, 0xFF)].map fun (hi, lo) =>
        rssiMag ({ start with rssiHi := hi, rssiLo := lo } : State).rssiValue) =
      [0x00, 0x01, 0x46, 0x80, 0xA4, 0xFF, 0xFF, 0xFF, 0x05, 0xFF, 0xFF, 0xFF, 0xFF] := by decide

/-- A reset event in the middle of work (R180): every register back, the next transaction waiting. -/
theorem test_reset_event :
    nextOf (step { beforeRpt with port := [.reset, .transaction 0x10C03#17] }) =
      some { start with port := [.transaction 0x10C03#17] } := by decide

/-- The fetch: the word placed at the port is the one the next step runs. -/
theorem test_withFetchWord : nextOf (step (start.withFetchWord 24 0x10C03)) =
    some { start with cyc := 0x64, seqOut := 0x64 } := by decide

/-! ### The assembly language (R81, R82), with the words of programs P1 and P2 -/

theorem test_assembler :
    (match assembleLines ["nxt   ; CYC", "rd SEQ_OUT => 0x64", "", "wr TX_CYC, 100", "rssi -70", "txpay 1, 2", "rd FB11"] with
     | .ok ws => ws
     | .error _ => []) =
      [0x10C03, 0x00F00, 0x11064, 0x11EBA, 0x11FFF, 0x11401, 0x11502, 0x11302, 0x00B00] := by decide

theorem test_register_names_distinct : (Reg.map.map regAsmName).Nodup := by decide

/-! ### The host (section 4 of spec/60_exceptions.md) -/

/-- The controller of vector L1-6 while it listens, its request having been sent with the cycle id 0x64. -/
def listening : Controller :=
  { status := .listeningForResponse, block := { start with cyc := 0x64, seqOut := 0x64 }, target := 0xFF, thresholdDbm := -90,
    sent := [], reports := [] }

/-- Vectors L1-6 and L1-7: the response gives one report, and a timeout gives none and changes nothing. -/
theorem test_host_receives :
    (nextOf (controllerStep (.received (.success packet42C (BitVec.ofInt 16 (-70)))) listening)).map
      (fun d => (d.status, d.reports)) =
      some (.requestingReport, [{ peripheralId := 0xFF, rssiMagnitude := 0x46, sensorText := [0x34, 0x32, 0x43] }]) ∧
    nextOf (controllerStep (.received .rxTimeout) listening) = some listening := by decide

/-- Program P1: the request read out of FB. -/
theorem test_host_requests :
    (nextOf (controllerStep (.request 0 (Vector.replicate 9 0xEE)) { listening with status := .requestingReport, block := start })).map
      Controller.status =
      some (.sensingChannel [0x64, 0x01, 0xFF, 0, 0, 0, 0, 0, 0, 0, 0, 0]) := by decide

/-! ### Witnesses: for each statement with hypotheses, states and operands that meet them, clause by clause -/

/-- The frame of vectors V2 and V5: 07 01 ..., no response. -/
def packetBadType : Vector Byte 12 := packet42C.set 1 0x01

/-- The state after the first `rxp` of program P2. -/
def accepted : State := rxpCommand beforeRxp

/-- Every clause of the statement, at the values next to its bounds. -/
theorem witness_EveryWordIsAReadOrAWrite :
    (0x0FFFF#17).toNat < 0x10000 ∧
    (0x10000 ≤ (0x10BFF#17).toNat ∧ (0x10BFF#17).toNat / 256 ≠ 0x10C) ∧
    (0x10000 ≤ (0x10D00#17).toNat ∧ (0x10D00#17).toNat / 256 ≠ 0x10C) ∧
    (0x10C00#17).toNat / 256 = 0x10C ∧ (0x10CFF#17).toNat / 256 = 0x10C := by decide

theorem witness_DecodeOfEncode :
    (Instr.reservedCmd 0x07).WellFormed ∧ (Instr.wr 0x0D 0xFF).WellFormed ∧ Instr.rxp.WellFormed := by decide

theorem witness_StepRunsTheDecodedInstruction :
    ({ start with port := [.transaction 0x10C03#17, .reset] } : State).port = .transaction 0x10C03#17 :: [.reset] ∧
    decodeTableWord 24 0x10C03 = some .nxt ∧ decodeTableWord 24 0x1FFFF = some (.wr 0xFF 0xFF) := by decide

theorem witness_StepWithoutEventChangesNothing : start.port = [] := by decide

theorem witness_ResetEventRestoresEveryRegister : ({ beforeRpt with port := [.reset] } : State).port = .reset :: [] := by decide

/-- The address clauses of ReadReturnsTheMappedRegister, as tests on an address. -/
def readClauses (a : Byte) : List Bool :=
  ((List.finRange 12).map fun i => decide (a.toNat = i.val)) ++
  [a == 0x0C, a == 0x0D, a == 0x0E, a == 0x0F, a == 0x10, a == 0x11, a == 0x12, a == 0x13] ++
  ((List.finRange 9).map fun j => decide (a.toNat = 0x14 + j.val)) ++
  [a == 0x1D, a == 0x1E, a == 0x1F, a == 0x20, a == 0x21, a == 0x22] ++
  ((List.finRange 9).map fun j => decide (a.toNat = 0x23 + j.val)) ++ [a == 0x2C, a == 0x2D, a == 0x2E, a == 0x2F] ++
  ((List.finRange 5).map fun k => decide (a.toNat = 0x30 + k.val)) ++
  ((List.finRange 3).map fun k => decide (a.toNat = 0x35 + k.val)) ++ [a == 0x38, decide (0x39 ≤ a.toNat)]

/-- The first and the last address of each register or register array of R20, and of the reserved range. -/
def boundaryAddrs : List Byte :=
  [0x00, 0x0B, 0x0C, 0x0D, 0x0E, 0x0F, 0x10, 0x11, 0x12, 0x13, 0x14, 0x1C, 0x1D, 0x1E, 0x1F, 0x20] ++
  [0x21, 0x22, 0x23, 0x2B, 0x2C, 0x2D, 0x2E, 0x2F, 0x30, 0x34, 0x35, 0x37, 0x38, 0x39, 0xFF]

/-- Each of them meets exactly one clause: the clauses are met, and no two of them claim one address. -/
theorem witness_ReadReturnsTheMappedRegister :
    (0x00E00#17).getLsbD 16 = false ∧ (∀ a ∈ boundaryAddrs, ((readClauses a).filter id).length = 1) ∧
    Coherent start ∧ start.status.getLsbD 3 = false ∧ 0x2D ≤ (0x2D#8).toNat ∧ (0x38#8).toNat ≤ 0x38 := by
  refine ⟨by decide, by decide, ?_, by decide, by decide, by decide⟩
  constructor <;> decide

/-- The address clauses of WriteStoresTheMappedRegister. -/
def writeClauses (a : Byte) : List Bool :=
  ((List.finRange 12).map fun i => decide (a.toNat = i.val)) ++ [a == 0x10, a == 0x11, a == 0x12, a == 0x13] ++
  ((List.finRange 9).map fun j => decide (a.toNat = 0x14 + j.val)) ++
  [a == 0x1D, a == 0x1E, a == 0x1F, a == 0x0C, decide (a = 0x0D ∨ a = 0x0E ∨ a = 0x0F ∨ 0x20 ≤ a.toNat)]

theorem witness_WriteStoresTheMappedRegister :
    ((0x112FF#17).getLsbD 16 = true ∧ (0x112FF#17).extractLsb' 8 8 ≠ 0x0C#8) ∧
    (∀ a ∈ boundaryAddrs, ((writeClauses a).filter id).length = 1) := by decide

theorem witness_ReservedAddressesReadZeroIgnoreWrites : 0x39 ≤ (0x39#8).toNat ∧ 0x39 ≤ (0xFF#8).toNat := by decide

theorem witness_ReadOnlyRegistersIgnoreWrites :
    (0x0D ≤ (0x0D#8).toNat ∧ (0x0F#8).toNat ≤ 0x0F) ∧ (0x20 ≤ (0x20#8).toNat ∧ (0x38#8).toNat ≤ 0x38) := by decide

theorem witness_ReadsAreIdempotentWritesAreLocal :
    (0x0B#8).toNat < 0x0C ∧ (0x10 ≤ (0x10#8).toNat ∧ (0x1F#8).toNat ≤ 0x1F) := by decide

theorem witness_ReservedCommandSetsIllCmdOnly : 0x07 ≤ (0x07#8).toNat ∧ 0x07 ≤ (0xFF#8).toNat := by decide

theorem witness_CommandDispatchClearsIllCmd : (0x06#8).toNat ≤ 0x06 ∧ 0x07 ≤ (0x07#8).toNat := by decide

theorem witness_EncBuildsTheFrame :
    ({ beforeEnc with txPlen := 9 } : State).txPlen.toNat ≤ 9 ∧ 9 < ({ beforeEnc with txPlen := 10 } : State).txPlen.toNat := by
  decide

theorem witness_CodecRoundTrip : 0 ≤ 9 ∧ 9 ≤ 9 := by decide

theorem witness_EncThenDecGivesTheFrameBack : ({ beforeEnc with txPlen := 9 } : State).txPlen.toNat ≤ 9 := by decide

/-- Between two NXTs the host reads CYC, writes TX_CYC and encodes. -/
theorem witness_TwoNxtAreOneApart :
    (∀ i ∈ [Instr.rd 0x0E, .wr 0x10 0x64, .enc], i.WellFormed ∧ i ≠ .nxt ∧ i ≠ .acc ∧ i ≠ .rxp) ∧
    (nextOf (execAll [.nxt] { start with cyc := 0xFE })).map State.seqOut = some 0xFF ∧
    (nextOf (execAll ([Instr.rd 0x0E, .wr 0x10 0x64, .enc] ++ [.nxt]) { start with cyc := 0xFF })).map State.seqOut =
      some 0x00 := by decide

theorem witness_AccRepeatIsADuplicate : 0x07#8 ≠ 0x08#8 ∧ 0x63#8 ≠ 0x08#8 ∧ start.cyc = 0x63#8 := by decide

theorem witness_AccHasNoWindow : 0x20#8 ≠ 0x10#8 ∧ 0x20#8 ≠ ({ start with cyc := 0x10 } : State).cyc := by decide

theorem witness_OwnRequestEchoIsADuplicate :
    beforeRxp.params.rxpOrder = .dedupFirst ∧
    ({ startTypeFirst with fb := packet42C } : State).fb[1] = startTypeFirst.params.mtResponseReport := by decide

theorem witness_TextCountByConvention : 0x01#8 ≠ 0x00#8 := by decide

theorem witness_RssiMagnitudeSaturates : (-32768 : Int) ≤ -32768 ∧ (32767 : Int) ≤ 32767 := by decide

/-- NODATA, TYPE_ERR and a report: the three clauses. -/
theorem witness_RptExtractsTheReport :
    start.status.getLsbD 1 = false ∧
    (({ beforeRpt with rx := decodeFrame packetBadType } : State).status.getLsbD 1 = true ∧
      ({ beforeRpt with rx := decodeFrame packetBadType } : State).rx.messageType ≠ beforeRpt.params.mtResponseReport) ∧
    (beforeRpt.status.getLsbD 1 = true ∧ beforeRpt.rx.messageType = beforeRpt.params.mtResponseReport) := by decide

/-- BADTYPE under TYPE_FIRST, a duplicate under each premise, BADTYPE under DEDUP_FIRST, and a report. -/
theorem witness_RxpValidatesAndExtracts :
    (startTypeFirst.params.rxpOrder = .typeFirst ∧
      (decodeFrame packetBadType).messageType ≠ startTypeFirst.params.mtResponseReport) ∧
    (start.params.rxpOrder = .dedupFirst ∧ (decodeFrame packetBadType).cycle = ({ start with cyc := 0x07 } : State).cyc) ∧
    ((decodeFrame packet42C).messageType = startTypeFirst.params.mtResponseReport ∧
      (decodeFrame packet42C).cycle = ({ startTypeFirst with cyc := 0x07 } : State).cyc) ∧
    (start.params.rxpOrder = .dedupFirst ∧ (decodeFrame packetBadType).cycle ≠ start.cyc ∧
      (decodeFrame packetBadType).messageType ≠ start.params.mtResponseReport) ∧
    ((decodeFrame packet42C).cycle ≠ beforeRxp.cyc ∧
      (decodeFrame packet42C).messageType = beforeRxp.params.mtResponseReport) := by decide

/-- EXACT at L = 5; INCLUSIVE at L = 1 and L = 6. -/
theorem witness_SensorTextIsTheDesignatedBytes :
    ((nextOf (exec .rxp { beforeRxp with fb := packet42C.set 6 5 })).map State.rxpRes = some 0x01 ∧
      start.params.lenConv = .exact ∧ (packet42C.set 6 5)[6].toNat ≤ 5) ∧
    ((nextOf (exec .rxp { startTypeFirst with fb := packet42C.set 6 1 })).map State.rxpRes = some 0x01 ∧
      startTypeFirst.params.lenConv = .inclusive ∧ 1 ≤ (packet42C.set 6 1)[6].toNat) ∧
    ((nextOf (exec .rxp { startTypeFirst with fb := packet42C.set 6 6 })).map State.rxpRes = some 0x01 ∧
      (packet42C.set 6 6)[6].toNat ≤ 6) := by decide

theorem witness_PeripheralIdIsNeverCompared :
    exec .rxp beforeRxp = .next accepted ∧ exec .rpt beforeRpt = .next (rptCommand beforeRpt) ∧
    accepted.status.getLsbD 3 = true := ⟨rfl, rfl, by decide⟩

theorem witness_RptTwiceIsRptOnce : exec .rpt beforeRpt = .next (rptCommand beforeRpt) := rfl

theorem witness_RxpRepeatIsADuplicate : exec .rxp beforeRxp = .next accepted ∧ accepted.rxpRes = 0x01#8 := ⟨rfl, by decide⟩

/-- The frames of program P5, with the cycle id 0x07. -/
theorem witness_RejectedFrameStillMovesCyc :
    ({ start with fb := packetBadType } : State).params.rxpOrder = .dedupFirst ∧
    ({ start with fb := packetBadType } : State).fb[0] ≠ start.cyc ∧
    ({ start with fb := packetBadType } : State).fb[1] ≠ start.params.mtResponseReport ∧
    packet42C[0] = ({ start with fb := packetBadType } : State).fb[0] ∧ packet42C[1] = start.params.mtResponseReport := by decide

/-- A new frame, which meets the clause with ACC_NEW = 1, and a duplicate, which meets the one with ACC_NEW = 0. -/
theorem witness_ManualPathAgreesWithRxp :
    (beforeRxp.params.rxpOrder = .dedupFirst ∧
      (nextOf (execAll [.dec, .rd 0x20] beforeRxp)).map State.readData = some (some 0x07) ∧
      ((nextOf (execAll [.dec, .rd 0x20, .wr 0x1D 0x07, .acc] beforeRxp)).map fun k => k.status.getLsbD 2) = some true) ∧
    (accepted.params.rxpOrder = .dedupFirst ∧
      (nextOf (execAll [.dec, .rd 0x20] accepted)).map State.readData = some (some 0x07) ∧
      ((nextOf (execAll [.dec, .rd 0x20, .wr 0x1D 0x07, .acc] accepted)).map fun k => k.status.getLsbD 2) = some false) := by
  decide

/-- NXT, ACC and RXP each change CYC somewhere. -/
theorem witness_OnlySequencerCommandsWriteCyc :
    (exec .nxt start = .next (nxtCommand start) ∧ (nxtCommand start).cyc ≠ start.cyc) ∧
    (exec .acc start = .next (accCommand start) ∧ (accCommand start).cyc ≠ start.cyc) ∧
    (Instr.rxp.WellFormed ∧ exec .rxp beforeRxp = .next accepted ∧ accepted.cyc ≠ beforeRxp.cyc) :=
  ⟨⟨rfl, by decide⟩, ⟨rfl, by decide⟩, by decide, rfl, by decide⟩

/-- For CommandStatusBits, ReportStatusBits, OnlyNxtWritesSeqOut, OnlyDecAndRxpWriteRx, OnlyRxpWritesItsOutcome and
OnlyRptAndRxpWriteTheReport: RXP and RPT that build a report, and RXP that does not. -/
theorem witness_CommandStatusBits :
    (Instr.rxp.WellFormed ∧ exec .rxp beforeRxp = .next accepted ∧ accepted.rxpRes = 0x01#8) ∧
    exec .rxp accepted = .next (rxpCommand accepted) ∧ (rxpCommand accepted).rxpRes = 0x02#8 ∧
    exec .enc beforeEnc = .next (encCommand beforeEnc) := ⟨⟨by decide, rfl, by decide⟩, rfl, by decide, rfl⟩

theorem witness_ReportStatusBits :
    (Instr.rpt.WellFormed ∧ exec .rpt beforeRpt = .next (rptCommand beforeRpt)) ∧
    (Instr.rxp.WellFormed ∧ exec .rxp beforeRxp = .next accepted) ∧
    (Instr.nop.WellFormed ∧ exec .nop start = .next (nopCommand start) ∧ Instr.nop ≠ .rpt ∧ Instr.nop ≠ .rxp) :=
  ⟨⟨by decide, rfl⟩, ⟨by decide, rfl⟩, by decide, rfl, by decide, by decide⟩

theorem witness_OnlyResetClearsDecValid :
    beforeRpt.status.getLsbD 1 = true ∧
    (nextOf (step { beforeRpt with port := [.reset] })).map (fun t => t.status.getLsbD 1) = some false := by decide

theorem witness_OnlyNxtWritesSeqOut :
    Instr.acc.WellFormed ∧ exec .acc start = .next (accCommand start) ∧ Instr.acc ≠ .nxt := ⟨by decide, rfl, by decide⟩

theorem witness_OnlyTheHostWritesOperands :
    ((∀ a v, Instr.rxp ≠ .wr a v) ∧ exec .rxp beforeRxp = .next accepted) ∧
    (0x10 ≤ (0x10#8).toNat ∧ (0x10#8).toNat ≤ 0x1F) ∧ (0x10 ≤ (0x1F#8).toNat ∧ (0x1F#8).toNat ≤ 0x1F) :=
  ⟨⟨(fun _ _ h => by cases h), rfl⟩, by decide, by decide⟩

theorem witness_OnlyDecAndRxpWriteRx :
    (0x20 ≤ (0x20#8).toNat ∧ (0x2B#8).toNat ≤ 0x2B) ∧
    (Instr.dec.WellFormed ∧ exec .dec beforeRxp = .next (decCommand beforeRxp)) ∧
    (Instr.rpt.WellFormed ∧ exec .rpt beforeRpt = .next (rptCommand beforeRpt) ∧ Instr.rpt ≠ .dec ∧ Instr.rpt ≠ .rxp) :=
  ⟨by decide, ⟨by decide, rfl⟩, by decide, rfl, by decide, by decide⟩

theorem witness_OnlyRxpWritesItsOutcome :
    (Instr.rxp.WellFormed ∧ exec .rxp accepted = .next (rxpCommand accepted)) ∧
    (Instr.acc.WellFormed ∧ exec .acc start = .next (accCommand start) ∧ Instr.acc ≠ .rxp) :=
  ⟨⟨by decide, rfl⟩, by decide, rfl, by decide⟩

/-- ENC and a WR to FB11 each change FB. -/
theorem witness_OnlyEncAndTheHostWriteFb :
    (exec .enc beforeEnc = .next (encCommand beforeEnc) ∧ (encCommand beforeEnc).fb ≠ beforeEnc.fb) ∧
    (Instr.wr 0x0B 0x01).WellFormed ∧ exec (.wr 0x0B 0x01) start = .next (start.portWrite 0x0B 0x01) ∧
    (start.portWrite 0x0B 0x01).fb ≠ start.fb := ⟨⟨rfl, by decide⟩, by decide, rfl, by decide⟩

theorem witness_OnlyRptAndRxpWriteTheReport :
    (Instr.rxp.WellFormed ∧ exec .rxp beforeRxp = .next accepted ∧ accepted.status.getLsbD 3 = true) ∧
    (exec .rxp accepted = .next (rxpCommand accepted) ∧ (rxpCommand accepted).status.getLsbD 3 = false) :=
  ⟨⟨by decide, rfl, by decide⟩, rfl, by decide⟩

theorem witness_CommandFrames :
    exec .nop start = .next (nopCommand start) ∧ exec (.reservedCmd 0x07) start = .next (reservedCommand 0x07 start) ∧
    exec .enc beforeEnc = .next (encCommand beforeEnc) ∧ exec .dec beforeRxp = .next (decCommand beforeRxp) ∧
    exec .nxt start = .next (nxtCommand start) ∧ exec .acc start = .next (accCommand start) ∧
    exec .rpt beforeRpt = .next (rptCommand beforeRpt) ∧ exec .rxp beforeRxp = .next accepted ∧
    (0x1F#8).toNat < 0x20 ∧ 0x38 < (0x39#8).toNat := ⟨rfl, rfl, rfl, rfl, rfl, rfl, rfl, rfl, by decide, by decide⟩

theorem witness_OnlyTheResponseCodeIsCompared :
    exec .rxp beforeRxp = .next accepted ∧ exec .acc start = .next (accCommand start) ∧
    (Instr.acc = .enc ∨ Instr.acc = .dec ∨ Instr.acc = .nxt ∨ Instr.acc = .acc) := ⟨rfl, rfl, by decide⟩

theorem witness_ResetIsCoherent : testParams.wf = true := by decide

/-- A coherent state with a report in it, and one after which the next step builds a report. -/
theorem witness_StepKeepsCoherence :
    Coherent accepted ∧ Coherent { beforeRxp with port := [.transaction 0x10C06#17] } ∧
    (nextOf (step { beforeRxp with port := [.transaction 0x10C06#17] })).map State.rxpRes = some 0x01 := by
  refine ⟨?_, ?_, by decide⟩ <;> constructor <;> decide

theorem witness_StepKeepsTheParameters :
    (nextOf (step { beforeRxp with port := [.transaction 0x10C06#17, .reset] })).map State.port = some [.reset] := by decide

theorem witness_HostBuildsTheRequest :
    ({ listening with status := .requestingReport } : Controller).status = .requestingReport ∧ (0x09#8).toNat ≤ 9 := by decide

/-- A sample equal to the threshold passes, one above it does not. -/
theorem witness_HostSendsOnAClearChannel :
    ({ listening with status := .sensingChannel packet42C.toList } : Controller).status = .sensingChannel packet42C.toList ∧
    listening.thresholdDbm < -89 ∧ -90 ≤ listening.thresholdDbm := by decide

theorem witness_OnlyANewResponseEndsListening :
    listening.status = .listeningForResponse ∧
    (packet42C[0] ≠ listening.block.cyc ∧ packet42C[1] = listening.block.params.mtResponseReport) ∧
    packetBadType[1] ≠ listening.block.params.mtResponseReport ∧ (packet42C.set 0 0x64)[0] = listening.block.cyc := by decide

theorem witness_FailedReceiveTouchesNothing : listening.status = .listeningForResponse := by decide

theorem witness_HostNeverReachesReportTimedOut :
    (nextOf (controllerStep (.bringUp false) (Controller.coldStart testParams 0xFF (-90)))).map Controller.status =
      some .halted ∧
    ({ listening with status := .reportTimedOut } : Controller).status = .reportTimedOut := by decide

end Sys2Proof.Tests
end

section
/-! The words the host places at the port, and the step that takes one (spec/00_scope.md R7, spec/20_memory.md R54, R61). -/

namespace Sys2Proof

/-- A table word decodes exactly when its number, cut to `nbits`, fits a transaction word, and then as that word (R77, R80). -/
theorem decodeTableWord_eq_some_iff {nbits w : Nat} {i : Instr} :
    decodeTableWord nbits w = some i ↔
      w % 2 ^ nbits < 2 ^ 17 ∧ decode (BitVec.ofNat 17 (w % 2 ^ nbits)) = i := by
  unfold decodeTableWord decodeNat
  by_cases h : w % 2 ^ nbits < 2 ^ 17
  · simp only [h, ↓reduceIte, Option.some.injEq, true_and]
  · simp only [h, ↓reduceIte, reduceCtorEq, false_and]

namespace Machine

/-- A number that fits a transaction word becomes the host's next event. -/
theorem State.port_withFetchWord {nbits w : Nat} (h : w % 2 ^ nbits < 2 ^ 17) (s : State) :
    (s.withFetchWord nbits w).port = .transaction (BitVec.ofNat 17 (w % 2 ^ nbits)) :: s.port := by
  rw [State.withFetchWord, if_pos h]

/-- Placing a word changes the schedule alone: with the schedule put back, the state is the one before. -/
theorem State.withFetchWord_restore_port (s : State) (nbits w : Nat) :
    { s.withFetchWord nbits w with port := s.port } = s := by
  unfold State.withFetchWord
  split <;> rfl

/-- Settles O6: the transaction case of a step, applied for the second clause to the word `withFetchWord` placed. -/
theorem stepRunsTheDecodedInstruction : Obligations.StepRunsTheDecodedInstruction := by
  refine ⟨fun s w rest hport => step_transaction hport, fun s nbits w i hdec => ?_⟩
  obtain ⟨hfits, hi⟩ := decodeTableWord_eq_some_iff.mp hdec
  rw [step_transaction (State.port_withFetchWord hfits s), hi, State.withFetchWord_restore_port]

end Machine

end Sys2Proof
end

section
/-! What each instruction writes, said once: the flags after a command, and the frame of every well-formed instruction
(spec/10_state.md R21, R24–R44). -/

namespace Sys2Proof

/-- Every word decodes to an instruction of the table: a write to CMD becomes a command (R78). -/
theorem decode_wellFormed (w : TxWord) : (decode w).WellFormed := by
  have hcmd : ∀ v : Byte, (decodeCommand v).WellFormed := by decide
  unfold decode
  split
  · split
    · exact hcmd _
    next ha => exact bne_iff_ne.mpr ha
  · rfl

/-- No well-formed instruction is a WR to CMD. -/
theorem Instr.WellFormed.ne_wr_cmd {i : Instr} (h : i.WellFormed) (v : Byte) : i ≠ .wr cmdAddr v := by
  rintro rfl
  exact absurd h Bool.false_ne_true

namespace Machine

/-- Whether the frame in RX is a response, as a comparison of its type (R130). -/
theorem State.isResponse_eq (s : State) : s.isResponse = decide (s.rx.messageType = s.params.mtResponseReport) :=
  beq_eq_decide ..

/-- The text is cut exactly where more than TEXT_CAP octets are wanted (R132). -/
theorem textCount_cut (conv : LenConv) (L : Byte) : (textCount conv L).2 = decide (5 < wantedText conv L) := by
  simp [textCount, rawTextCount_eq, textCap]

/-- The flags after NOP (R102). -/
theorem flag_nopCommand (s : State) (g : Flag) : (nopCommand s).flag g = if g = .illCmd then false else s.flag g :=
  s.flag_beginCommand g

/-- The flags after NXT (R120). -/
theorem flag_nxtCommand (s : State) (g : Flag) : (nxtCommand s).flag g = if g = .illCmd then false else s.flag g :=
  s.flag_beginCommand g

/-- The flags after DEC (R112). -/
theorem flag_decCommand (s : State) (g : Flag) :
    (decCommand s).flag g = if g = .decValid then true else if g = .illCmd then false else s.flag g := by
  rw [decCommand, State.flag_loadRx, State.flag_beginCommand]

/-- The flags after a reserved command value (R103). -/
theorem flag_reservedCommand (v : Byte) (s : State) (g : Flag) :
    (reservedCommand v s).flag g = if g = .illCmd then true else s.flag g :=
  s.flag_raise .illCmd g

/-- The flags after RPT (R136). -/
theorem flag_rptCommand (s : State) (g : Flag) : (rptCommand s).flag g =
    match g with
    | .rptValid => s.flag .decValid && decide (s.rx.messageType = s.params.mtResponseReport)
    | .typeErr => s.flag .decValid && decide (s.rx.messageType ≠ s.params.mtResponseReport)
    | .lenClamp => (s.flag .decValid && decide (s.rx.messageType = s.params.mtResponseReport)) &&
        decide (5 < wantedText s.params.lenConv s.rx.payload[3])
    | .noData => !s.flag .decValid
    | .illCmd => false
    | .encErr | .decValid | .accNew => s.flag g := by
  rcases rptCommand_cases s with ⟨hd, h⟩ | ⟨hd, hr, h⟩ | ⟨hd, hr, h⟩
  · cases g <;> simp [h, hd]
  · rw [State.isResponse_eq, decide_eq_false_iff_not] at hr
    cases g <;> simp [h, hd, hr]
  · rw [State.isResponse_eq, decide_eq_true_eq] at hr
    cases g <;> simp [h, hd, hr, textCount_cut]

/-- The flags after RXP (R137). -/
theorem flag_rxpCommand (s : State) (g : Flag) : (rxpCommand s).flag g =
    match g with
    | .decValid => true
    | .accNew => if s.params.rxpOrder = .dedupFirst ∨ s.fb[1] = s.params.mtResponseReport
        then decide (s.fb[0] ≠ s.cyc) else s.flag .accNew
    | .rptValid => decide (s.fb[0] ≠ s.cyc) && decide (s.fb[1] = s.params.mtResponseReport)
    | .typeErr => decide (s.params.rxpOrder = .typeFirst ∨ s.fb[0] ≠ s.cyc) &&
        decide (s.fb[1] ≠ s.params.mtResponseReport)
    | .lenClamp => (decide (s.fb[0] ≠ s.cyc) && decide (s.fb[1] = s.params.mtResponseReport)) &&
        decide (5 < wantedText s.params.lenConv s.fb[6])
    | .noData | .illCmd => false
    | .encErr => s.flag .encErr := by
  rcases rxpCommand_cases s with ⟨ho, hm, h⟩ | ⟨hrun, hc, h⟩ | ⟨ho, hc, hm, h⟩ | ⟨hc, hm, h⟩
  · cases g <;> simp [h, ho, hm]
  · rcases hrun with ho | hm
    · cases g <;> simp [h, ho, hc]
    · cases g <;> simp [h, hm, hc]
  · cases g <;> simp [h, ho, hc, hm]
  · cases g <;> simp [h, hc, hm, textCount_cut]

/-- The four bits of STATUS that say what the last RPT or RXP found (R27–R30). -/
def reportFlags : List Flag := [.rptValid, .typeErr, .lenClamp, .noData]

/-- What instruction `i` leaves as it was, from `s` to `t`, unless it is a writer the field excludes: the registers of R20
and the STATUS bits but ILL_CMD. No instruction writes the parameters (R183). -/
structure WritesOnlyItsOwn (i : Instr) (s t : State) : Prop where
  params : t.params = s.params
  fb : i ≠ .enc → (∀ a v, i ≠ .wr a v) → t.fb = s.fb
  cyc : i ≠ .nxt → i ≠ .acc → i ≠ .rxp → t.cyc = s.cyc
  seqOut : i ≠ .nxt → t.seqOut = s.seqOut
  operands : (∀ a v, i ≠ .wr a v) →
    t.tx = s.tx ∧ t.txPlen = s.txPlen ∧ t.accIn = s.accIn ∧ t.rssiLo = s.rssiLo ∧ t.rssiHi = s.rssiHi
  rx : i ≠ .dec → i ≠ .rxp → t.rx = s.rx
  rxpRes : i ≠ .rxp → t.rxpRes = s.rxpRes
  rpt : i ≠ .rpt → i ≠ .rxp → t.rpt = s.rpt
  encErr : i ≠ .enc → t.flag .encErr = s.flag .encErr
  decValid : i ≠ .dec → i ≠ .rxp → t.flag .decValid = s.flag .decValid
  accNew : i ≠ .acc → i ≠ .rxp → t.flag .accNew = s.flag .accNew
  reportFlag : i ≠ .rpt → i ≠ .rxp → ∀ g ∈ reportFlags, t.flag g = s.flag g

/-- Every instruction writes only what is its own; a WR to CMD, which is a command, is none of them (R50, R53). -/
theorem exec_writesOnlyItsOwn {i : Instr} {s t : State} (hi : ∀ v, i ≠ .wr cmdAddr v) (h : exec i s = .next t) :
    WritesOnlyItsOwn i s t := by
  cases i with
  | rd a => cases h; constructor <;> simp [State.flag]
  | wr a v =>
    cases h
    have ha : a ≠ cmdAddr := by
      rintro rfl
      exact hi v rfl
    obtain ⟨hstatus, hcyc, hseq, hrx, hres, hrpt, hparams, -, -⟩ := s.portWrite_frame v ha
    constructor <;> simp [State.flag, hstatus, hcyc, hseq, hrx, hres, hrpt, hparams]
  | nop => cases h; constructor <;> simp [↓flag_nopCommand, nopCommand, reportFlags]
  | enc =>
    cases h
    obtain ⟨W, st, hframe⟩ := encCommand_frame s
    constructor <;> simp [↓flag_encCommand, hframe, reportFlags]
  | dec => cases h; constructor <;> simp [↓flag_decCommand, decCommand, reportFlags]
  | nxt => cases h; constructor <;> simp [↓flag_nxtCommand, nxtCommand, reportFlags]
  | acc => cases h; constructor <;> simp [↓flag_accCommand, accCommand, reportFlags]
  | rpt =>
    cases h
    obtain ⟨r, st, hframe⟩ := rptCommand_frame s
    constructor <;> simp [↓flag_rptCommand, hframe]
  | rxp =>
    cases h
    obtain ⟨c, res, r, st, hframe⟩ := rxpCommand_frame s
    constructor <;> simp [↓flag_rxpCommand, hframe]
  | reservedCmd v => cases h; constructor <;> simp [↓flag_reservedCommand, reservedCommand, reportFlags]

end Machine

end Sys2Proof
end

section
/-! The report registers after RPT and RXP (spec/10_state.md R41–R44, spec/43_report_extractor.md R134–R137), and the coherence
every step keeps. -/

namespace Sys2Proof.Machine

/-- The report registers are the report of the frame in RX and of the RSSI where RPT_VALID is 1, and 0x00 where it is 0. -/
structure ReportMatches (t : State) : Prop where
  report : t.flag .rptValid = true → IsReport t.params.lenConv t.rx t.rssiHi t.rssiLo t.rpt (t.flag .lenClamp)
  cleared : t.flag .rptValid = false → t.rpt = ReportRegs.zero

theorem reportMatches_of_no_report {t : State} (hvalid : t.flag .rptValid = false) (hzero : t.rpt = ReportRegs.zero) :
    ReportMatches t where
  report := by simp [hvalid]
  cleared _ := hzero

/-- `build_report` after `clear_report` leaves the report of the frame in RX (R134). -/
theorem reportMatches_buildReport {s : State} (hzero : s.rpt = ReportRegs.zero) : ReportMatches s.buildReport where
  report _ := by simpa using s.buildReport_isReport hzero
  cleared := by simp

/-- Recording an outcome in RXP_RES leaves the report as it is. -/
theorem ReportMatches.setRxpRes {s : State} (h : ReportMatches s) (code : Byte) : ReportMatches (s.setRxpRes code) :=
  ⟨h.report, h.cleared⟩

theorem reportMatches_rptCommand (s : State) : ReportMatches (rptCommand s) := by
  rcases rptCommand_cases s with ⟨-, h⟩ | ⟨-, -, h⟩ | ⟨-, -, h⟩ <;> rw [h]
  · exact reportMatches_of_no_report (by simp) rfl
  · exact reportMatches_of_no_report (by simp) rfl
  · exact reportMatches_buildReport rfl

theorem reportMatches_rxpCommand (s : State) : ReportMatches (rxpCommand s) := by
  rcases rxpCommand_cases s with ⟨-, -, h⟩ | ⟨-, -, h⟩ | ⟨-, -, -, h⟩ | ⟨-, -, h⟩ <;> rw [h]
  · exact reportMatches_of_no_report (by simp) rfl
  · exact reportMatches_of_no_report (by simp) rfl
  · exact reportMatches_of_no_report (by simp) rfl
  · exact (reportMatches_buildReport rfl).setRxpRes 0x01#8

/-- The code RXP leaves in RXP_RES, by the outcome of its checks (R40, R137). -/
theorem rxpCommand_rxpRes (s : State) : (rxpCommand s).rxpRes =
    if s.fb[0] = s.cyc ∧ (s.params.rxpOrder = .dedupFirst ∨ s.fb[1] = s.params.mtResponseReport) then 0x02#8
    else if s.fb[1] = s.params.mtResponseReport then 0x01#8 else 0x03#8 := by
  rcases rxpCommand_cases s with ⟨ho, hm, h⟩ | ⟨hrun, hc, h⟩ | ⟨-, hc, hm, h⟩ | ⟨hc, hm, h⟩
  · simp [h, ho, hm]
  · simp [h, hrun, hc]
  · simp [h, hc, hm]
  · simp [h, hc, hm]

/-- A report has the length, the cut and the empty text tail its declared length gives (R132, R134). -/
theorem IsReport.count {conv : LenConv} {f : Frame} {hi lo : Byte} {r : ReportRegs} {clamp : Bool}
    (h : IsReport conv f hi lo r clamp) :
    r.len.toNat = (textCount conv r.decl).1 ∧ clamp = (textCount conv r.decl).2 ∧
      ∀ k : Fin 5, r.len.toNat ≤ k.val → r.text[k] = 0x00#8 := by
  obtain ⟨-, -, hdecl, hlen, htext, -, hclamp⟩ := h
  refine ⟨?_, ?_, fun k hk => ?_⟩
  · rw [hlen, hdecl, textCount, rawTextCount_eq, textCap]
  · rw [hclamp, hdecl, textCount_cut]
  · have hbeyond : ¬ k.val < wantedText conv f.payload[3] := by omega
    rw [htext k, if_neg hbeyond]

/-- Cleared text registers read 0x00 (R135). -/
theorem reportRegs_zero_text : ∀ k : Fin 5, ReportRegs.zero.text[k] = 0x00#8 := by decide

/-- Coherence from registers whose report is the frame's or none, and bits that exclude each other: what RPT and RXP leave. -/
theorem coherent_of_reportMatches {t : State} (hrpt : ReportMatches t) (hparams : t.params.wf = true)
    (hres : t.rxpRes.toNat ≤ 0x03)
    (hvalid : t.flag .rptValid = true → t.flag .typeErr = false ∧ t.flag .noData = false)
    (herr : t.flag .noData = true → t.flag .typeErr = false)
    (hclamp : t.flag .lenClamp = true → t.flag .rptValid = true)
    (hnone : t.flag .decValid = false →
      t.rx = Frame.zero ∧ t.rxpRes = 0x00#8 ∧ t.flag .rptValid = false ∧ t.flag .typeErr = false) : Coherent t where
  params_wf := hparams
  rxpRes_code := hres
  no_report_zero := hrpt.cleared
  report_count h := by
    obtain ⟨hlen, hcut, -⟩ := (hrpt.report h).count
    exact ⟨hlen, hcut⟩
  len_le := by
    cases h : t.flag .rptValid with
    | false => rw [hrpt.cleared h]; decide
    | true =>
      obtain ⟨hlen, -, -⟩ := (hrpt.report h).count
      exact hlen.trans_le (textCount_le _ _)
  text_tail := by
    cases h : t.flag .rptValid with
    | false => rw [hrpt.cleared h]; exact fun k _ => reportRegs_zero_text k
    | true =>
      obtain ⟨-, -, htail⟩ := (hrpt.report h).count
      exact htail
  report_no_error := hvalid
  one_error := herr
  clamp_report := hclamp
  nothing_decoded := hnone

/-- RPT leads from a coherent state to a coherent one (R136). -/
theorem coherent_rptCommand {s : State} (hs : Coherent s) : Coherent (rptCommand s) := by
  obtain ⟨r, st, hframe⟩ := rptCommand_frame s
  apply coherent_of_reportMatches (reportMatches_rptCommand s)
  · rw [hframe]; exact hs.params_wf
  · rw [hframe]; exact hs.rxpRes_code
  · simp +contextual [flag_rptCommand]
  · simp +contextual [flag_rptCommand]
  · simp +contextual [flag_rptCommand]
  · intro hdec
    rw [flag_rptCommand] at hdec
    obtain ⟨hrx, hres, -, -⟩ := hs.nothing_decoded hdec
    refine ⟨by rw [hframe]; exact hrx, by rw [hframe]; exact hres, ?_, ?_⟩ <;> simp [flag_rptCommand, hdec]

/-- RXP leads from well-formed parameters to a coherent state, whatever the registers held (R137). -/
theorem coherent_rxpCommand {s : State} (hwf : s.params.wf = true) : Coherent (rxpCommand s) := by
  obtain ⟨c, res, r, st, hframe⟩ := rxpCommand_frame s
  apply coherent_of_reportMatches (reportMatches_rxpCommand s)
  · rw [hframe]; exact hwf
  · rw [rxpCommand_rxpRes]
    split
    · decide
    · split <;> decide
  · simp +contextual [flag_rxpCommand]
  · simp [flag_rxpCommand]
  · simp +contextual [flag_rxpCommand]
  · simp [flag_rxpCommand]

/-- Coherence carries over to a state with the same outcome, report and report bits, whose RX is either the same or counts as
decoded. -/
theorem Coherent.of_same_report {s t : State} (hs : Coherent s) (hparams : t.params = s.params)
    (hres : t.rxpRes = s.rxpRes) (hrpt : t.rpt = s.rpt) (hflag : ∀ g ∈ reportFlags, t.flag g = s.flag g)
    (hdec : t.flag .decValid = false → s.flag .decValid = false ∧ t.rx = s.rx) : Coherent t := by
  simp only [reportFlags, List.forall_mem_cons, List.not_mem_nil, false_implies, implies_true, and_true] at hflag
  obtain ⟨hvalid, htype, hclamp, hnodata⟩ := hflag
  constructor
  case nothing_decoded =>
    intro h
    obtain ⟨hdec0, hrx⟩ := hdec h
    simpa only [hrx, hres, hvalid, htype] using hs.nothing_decoded hdec0
  all_goals simp only [hparams, hres, hrpt, hvalid, htype, hclamp, hnodata]
  · exact hs.params_wf
  · exact hs.rxpRes_code
  · exact hs.no_report_zero
  · exact hs.report_count
  · exact hs.len_le
  · exact hs.text_tail
  · exact hs.report_no_error
  · exact hs.one_error
  · exact hs.clamp_report

/-- Every well-formed instruction leads from a coherent state to a coherent one. -/
theorem Coherent.exec {i : Instr} {s t : State} (hs : Coherent s) (hi : i.WellFormed) (h : exec i s = .next t) :
    Coherent t := by
  by_cases hrpt : i = .rpt
  · subst hrpt; cases h; exact coherent_rptCommand hs
  by_cases hrxp : i = .rxp
  · subst hrxp; cases h; exact coherent_rxpCommand hs.params_wf
  have hframe := exec_writesOnlyItsOwn hi.ne_wr_cmd h
  refine hs.of_same_report hframe.params (hframe.rxpRes hrxp) (hframe.rpt hrpt hrxp) (hframe.reportFlag hrpt hrxp) ?_
  intro hdecValid
  have hdec : i ≠ .dec := by
    rintro rfl
    cases h
    simp [flag_decCommand] at hdecValid
  exact ⟨(hframe.decValid hdec hrxp).symm.trans hdecValid, hframe.rx hdec hrxp⟩

/-- Every STATUS bit is 0 after reset (R181). -/
@[simp] theorem State.flag_resetWith (p : Params) (g : Flag) : (State.resetWith p).flag g = false :=
  BitVec.getLsbD_zero

/-- The reset state of every block with well-formed parameters is coherent (R181). -/
theorem coherent_resetWith {p : Params} (hwf : p.wf = true) : Coherent (State.resetWith p) := by
  have hvalid := State.flag_resetWith p .rptValid
  apply coherent_of_reportMatches (reportMatches_of_no_report hvalid rfl) hwf (Nat.zero_le _)
  · simp
  · simp
  · simp
  · exact fun _ => ⟨rfl, rfl, hvalid, State.flag_resetWith p .typeErr⟩

/-- Coherence does not speak of what the host does next or last read. -/
theorem Coherent.withPort {s : State} (hs : Coherent s) (port : List HostEvent) : Coherent { s with port := port } :=
  { hs with }

/-- Settles O52: idle steps change nothing, a transaction performs a well-formed instruction, and the reset state is coherent. -/
theorem stepKeepsCoherence : Obligations.StepKeepsCoherence := by
  intro s t hs h
  rcases step_cases h with ⟨-, rfl⟩ | ⟨w, rest, -, hexec⟩ | ⟨rest, -, rfl⟩
  · exact hs
  · exact (hs.withPort rest).exec (decode_wellFormed w) hexec
  · exact (coherent_resetWith hs.params_wf).withPort rest

end Sys2Proof.Machine
end

section
/-! Who writes each register and each STATUS bit (spec/10_state.md R21, R24–R44): the statements, from the frame of every
instruction and the writers' own laws. -/

namespace Sys2Proof.Machine

/-- CYC after RXP is as before or the frame's cycle id (R137). -/
theorem rxpCommand_cyc (s : State) : (rxpCommand s).cyc = s.cyc ∨ (rxpCommand s).cyc = s.fb[0] := by
  rcases rxpCommand_cases s with ⟨-, -, h⟩ | ⟨-, -, h⟩ | ⟨-, -, -, h⟩ | ⟨-, -, h⟩ <;> rw [h]
  · exact .inl rfl
  all_goals exact .inr (by simp [acceptIfNew_eq])

/-- RX after RXP is the frame in FB (R39, R137). -/
theorem rxpCommand_rx (s : State) : (rxpCommand s).rx = decodeFrame s.fb := by
  obtain ⟨c, res, r, st, hframe⟩ := rxpCommand_frame s
  rw [hframe]

/-- Settles O39: NXT, ACC and RXP by their own laws, every other instruction by its frame. -/
theorem onlySequencerCommandsWriteCyc : Obligations.OnlySequencerCommandsWriteCyc := by
  refine ⟨rfl, fun i s t hi h hne => ?_⟩
  by_cases hnxt : i = .nxt
  · subst hnxt; cases h; exact .inl ⟨rfl, rfl⟩
  by_cases hacc : i = .acc
  · subst hacc; cases h; exact .inr (.inl ⟨rfl, accCommand_cyc s⟩)
  by_cases hrxp : i = .rxp
  · subst hrxp; cases h; exact .inr (.inr ⟨rfl, (rxpCommand_cyc s).resolve_left hne⟩)
  exact absurd ((exec_writesOnlyItsOwn hi.ne_wr_cmd h).cyc hnxt hacc hrxp) hne

/-- ENC_ERR after every instruction (R24). -/
theorem exec_encErr {i : Instr} {s t : State} (hi : i.WellFormed) (h : exec i s = .next t) :
    t.flag .encErr = if i = .enc then decide (9 < s.txPlen.toNat) else s.flag .encErr := by
  split
  next henc => subst henc; cases h; exact flag_encCommand s .encErr
  next henc => exact (exec_writesOnlyItsOwn hi.ne_wr_cmd h).encErr henc

/-- DEC_VALID after every instruction (R25). -/
theorem exec_decValid {i : Instr} {s t : State} (hi : i.WellFormed) (h : exec i s = .next t) :
    t.flag .decValid = if i = .dec ∨ i = .rxp then true else s.flag .decValid := by
  split
  next hdecodes =>
    rcases hdecodes with rfl | rfl <;> cases h
    · exact flag_decCommand s .decValid
    · exact flag_rxpCommand s .decValid
  next hdecodes =>
    obtain ⟨hdec, hrxp⟩ := not_or.mp hdecodes
    exact (exec_writesOnlyItsOwn hi.ne_wr_cmd h).decValid hdec hrxp

/-- ACC_NEW after every instruction (R26). -/
theorem exec_accNew {i : Instr} {s t : State} (hi : i.WellFormed) (h : exec i s = .next t) :
    t.flag .accNew =
      if i = .acc then decide (s.accIn ≠ s.cyc)
      else if i = .rxp ∧ (s.params.rxpOrder = .dedupFirst ∨ s.fb[1] = s.params.mtResponseReport)
        then decide (s.fb[0] ≠ s.cyc)
      else s.flag .accNew := by
  by_cases hacc : i = .acc
  · subst hacc; cases h; simp [flag_accCommand]
  by_cases hrxp : i = .rxp
  · subst hrxp; cases h; simp [flag_rxpCommand]
  simpa [hacc, hrxp] using (exec_writesOnlyItsOwn hi.ne_wr_cmd h).accNew hacc hrxp

/-- Settles O40: the laws of the four bits, ILL_CMD by the instruction. -/
theorem commandStatusBits : Obligations.CommandStatusBits := by
  refine ⟨by decide, fun i s t hi h => ⟨exec_encErr hi h, exec_decValid hi h, exec_accNew hi h, ?_⟩⟩
  change t.flag .illCmd = _
  cases i with
  | rd a => cases h; rfl
  | wr a v =>
    cases h
    obtain ⟨hstatus, -⟩ := s.portWrite_frame v (bne_iff_ne.mp hi)
    rw [State.flag, hstatus]
    rfl
  | nop => cases h; exact flag_nopCommand s .illCmd
  | enc => cases h; exact flag_encCommand s .illCmd
  | dec => cases h; exact flag_decCommand s .illCmd
  | nxt => cases h; exact flag_nxtCommand s .illCmd
  | acc => cases h; exact flag_accCommand s .illCmd
  | rpt => cases h; exact flag_rptCommand s .illCmd
  | rxp => cases h; exact flag_rxpCommand s .illCmd
  | reservedCmd v => cases h; exact flag_reservedCommand v s .illCmd

/-- The mask 0x78 keeps the four report bits (R23). -/
theorem statusGet_and_reportBits (st : Byte) (g : Flag) :
    statusGet (st &&& 0x78#8) g = (decide (g ∈ reportFlags) && statusGet st g) := by
  cases g <;> simp [statusGet, Flag.bit, reportFlags]

/-- Octets with the same report bits agree under the mask 0x78. -/
theorem status_reportBits_congr {a b : Byte} (h : ∀ g ∈ reportFlags, statusGet a g = statusGet b g) :
    a &&& 0x78#8 = b &&& 0x78#8 := by
  apply status_ext
  intro g
  rw [statusGet_and_reportBits, statusGet_and_reportBits]
  by_cases hg : g ∈ reportFlags
  · rw [h g hg]
  · simp [hg]

/-- Settles O41: RPT and RXP by the laws of their flags, every other instruction by its frame. -/
theorem reportStatusBits : Obligations.ReportStatusBits := by
  refine ⟨by decide, fun i s t hi h => ⟨?_, ?_, fun hrpt hrxp => ?_⟩⟩
  · rintro rfl
    cases h
    refine ⟨flag_rptCommand s .rptValid, flag_rptCommand s .typeErr, ?_, flag_rptCommand s .noData⟩
    exact (flag_rptCommand s .lenClamp).trans
      (congrArg (· && decide (5 < wantedText s.params.lenConv s.rx.payload[3])) (flag_rptCommand s .rptValid).symm)
  · rintro rfl
    cases h
    refine ⟨flag_rxpCommand s .rptValid, flag_rxpCommand s .typeErr, ?_, flag_rxpCommand s .noData⟩
    exact (flag_rxpCommand s .lenClamp).trans
      (congrArg (· && decide (5 < wantedText s.params.lenConv s.fb[6])) (flag_rxpCommand s .rptValid).symm)
  · exact status_reportBits_congr ((exec_writesOnlyItsOwn hi.ne_wr_cmd h).reportFlag hrpt hrxp)

/-- No instruction clears DEC_VALID (R25). -/
theorem exec_keeps_decValid {i : Instr} {s t : State} (hi : i.WellFormed) (h : exec i s = .next t)
    (hset : s.flag .decValid = true) : t.flag .decValid = true := by
  rw [exec_decValid hi h, hset, ite_self]

/-- Settles O42: an idle step changes nothing and no instruction clears the bit, so only the reset is left. -/
theorem onlyResetClearsDecValid : Obligations.OnlyResetClearsDecValid := by
  intro s t h hset hclear
  rcases step_cases h with ⟨-, rfl⟩ | ⟨w, rest, -, hexec⟩ | ⟨rest, hport, -⟩
  · exact Bool.noConfusion (hset.symm.trans hclear)
  · have hkeep := exec_keeps_decValid (decode_wellFormed w) hexec hset
    exact Bool.noConfusion (hkeep.symm.trans hclear)
  · exact ⟨rest, hport⟩

/-- Settles O43: the frame of every instruction but NXT; NXT writes both registers alike. -/
theorem onlyNxtWritesSeqOut : Obligations.OnlyNxtWritesSeqOut :=
  ⟨rfl, fun _ _ _ hi h => (exec_writesOnlyItsOwn hi.ne_wr_cmd h).seqOut, fun _ => ⟨_, rfl, rfl⟩⟩

/-- The addresses 0x10 to 0x1F each name a register the host may write (R20). -/
theorem exists_rw_reg_of_operand_addr :
    ∀ a : Byte, 0x10 ≤ a.toNat → a.toNat ≤ 0x1F → ∃ r : Reg, Reg.ofAddr a = some r ∧ r.kind = .rw := by
  have h : ∀ a : Byte, 0x10 ≤ a.toNat → a.toNat ≤ 0x1F → (Reg.ofAddr a).any (fun r => r.kind == .rw) = true := by decide
  intro a hlo hhi
  simpa [Option.any_eq_true] using h a hlo hhi

/-- Settles O44: the frame of every instruction but a WR, and the store of a WR to one of these registers. -/
theorem onlyTheHostWritesOperands : Obligations.OnlyTheHostWritesOperands := by
  refine ⟨fun i s t hwr h => (exec_writesOnlyItsOwn (hwr cmdAddr) h).operands hwr, fun a v s hlo hhi => ?_⟩
  obtain ⟨r, hr, hrw⟩ := exists_rw_reg_of_operand_addr a hlo hhi
  obtain rfl := Reg.addr_of_ofAddr a r hr
  refine ⟨_, exec_wr_reg r v s hrw, ?_⟩
  rw [State.portRead_addr, State.reg_setReg, if_pos ⟨rfl, hrw⟩]

/-- Settles O45: DEC and RXP decode FB, every other instruction has RX in its frame. -/
theorem onlyDecAndRxpWriteRx : Obligations.OnlyDecAndRxpWriteRx := by
  refine ⟨by decide, fun i s t hi h => ⟨?_, (exec_writesOnlyItsOwn hi.ne_wr_cmd h).rx⟩⟩
  rintro (rfl | rfl) <;> cases h
  · exact frameAt_decodeFrame s.fb
  · rw [rxpCommand_rx]
    exact frameAt_decodeFrame s.fb

/-- Settles O46: the code RXP leaves against the flags it leaves; every other instruction by its frame. -/
theorem onlyRxpWritesItsOutcome : Obligations.OnlyRxpWritesItsOutcome := by
  refine ⟨rfl, fun i s t hi h => ⟨(exec_writesOnlyItsOwn hi.ne_wr_cmd h).rxpRes, ?_⟩⟩
  rintro rfl
  cases h
  change _ ∧ (_ ↔ (rxpCommand s).flag .rptValid = true) ∧ (_ ↔ (rxpCommand s).flag .typeErr = true) ∧ _
  simp only [flag_rxpCommand, rxpCommand_rxpRes]
  rcases rxpCommand_cases s with ⟨ho, hm, -⟩ | ⟨ho | hm, hc, -⟩ | ⟨-, hc, hm, -⟩ | ⟨hc, hm, -⟩
  · simp [ho, hm]
  · simp [ho, hc]
  · simp [hm, hc]
  · simp [hc, hm]
  · simp [hc, hm]

/-- Storing a register outside FB leaves FB. -/
theorem State.setReg_fb_of_ne (s : State) {r : Reg} (v : Byte) (h : ∀ j, r ≠ .fb j) : (s.setReg r v).fb = s.fb := by
  cases r with
  | fb j => exact absurd rfl (h j)
  | _ => rfl

/-- A port write from 0x0D on leaves FB, for FB lies below CMD (R20). -/
theorem State.portWrite_fb_of_le (s : State) {a : Byte} (v : Byte) (ha : 0x0C < a.toNat) : (s.portWrite a v).fb = s.fb := by
  have hcmd : a ≠ cmdAddr := by
    rintro rfl
    exact absurd ha (by decide)
  rcases s.portWrite_cases v hcmd with h | ⟨r, hr, -, h⟩ <;> rw [h]
  have hbelow : ∀ j, (Reg.fb j).addr.toNat < 0x0C := by decide
  refine s.setReg_fb_of_ne v ?_
  rintro j rfl
  rw [← hr] at ha
  exact absurd ha (hbelow j).not_gt

/-- Settles O47: ENC beyond the capacity keeps FB, a WR from 0x0C on stores no octet of FB, and the rest is the frame. -/
theorem onlyEncAndTheHostWriteFb : Obligations.OnlyEncAndTheHostWriteFb := by
  intro i s t hi h hne
  by_cases henc : i = .enc
  · subst henc
    cases h
    refine .inl ⟨rfl, Nat.le_of_not_lt fun hgt => hne ?_⟩
    rw [encCommand_of_gt s hgt]
    rfl
  by_cases hwr : ∃ a v, i = .wr a v
  · obtain ⟨a, v, rfl⟩ := hwr
    cases h
    refine .inr ⟨a, v, rfl, ?_⟩
    by_contra hbeyond
    have hcmd : a.toNat ≠ 0x0C := fun h => hi.ne_wr_cmd v (by rw [BitVec.eq_of_toNat_eq (y := cmdAddr) h])
    exact hne (s.portWrite_fb_of_le v (by omega))
  · push Not at hwr
    exact absurd ((exec_writesOnlyItsOwn hi.ne_wr_cmd h).fb henc hwr) hne

/-- Settles O48: what RPT and RXP leave in the report registers; every other instruction by its frame. -/
theorem onlyRptAndRxpWriteTheReport : Obligations.OnlyRptAndRxpWriteTheReport := by
  refine fun i s t hi h => ⟨(exec_writesOnlyItsOwn hi.ne_wr_cmd h).rpt, fun hwrites => ?_⟩
  have hmatch : ReportMatches t := by
    rcases hwrites with rfl | rfl <;> cases h
    · exact reportMatches_rptCommand s
    · exact reportMatches_rxpCommand s
  exact ⟨hmatch.report, fun hnone => (noReport_iff t.rpt).mpr (hmatch.cleared hnone)⟩

end Sys2Proof.Machine
end

section
/-! The memory map at the port (spec/20_memory.md R52, R53, R55, R57): which addresses the host may write, what a port access
leaves alone, and the RSSI operand. -/

namespace Sys2Proof

/-- The registers the host may write are FB, below CMD, and those from 0x10 to 0x1F (R20). -/
theorem Reg.kind_eq_rw_iff (r : Reg) :
    r.kind = .rw ↔ r.addr.toNat < 0x0C ∨ (0x10 ≤ r.addr.toNat ∧ r.addr.toNat ≤ 0x1F) := by
  cases r with
  | fb i => revert i; decide
  | txPay j => revert j; decide
  | rxPay j => revert j; decide
  | rptText k => revert k; decide
  | rptAux k => revert k; decide
  | _ => decide

/-- Every address below the reserved ones is a register's (R20, R51). -/
theorem Reg.exists_addr_eq {a : Byte} (h : a.toNat < 0x39) : ∃ r : Reg, r.addr = a := by
  have hmapped : Reg.ofAddr a ≠ none := fun hnone => absurd ((Reg.ofAddr_eq_none a).mp hnone) h.not_ge
  obtain ⟨r, hr⟩ := Option.ne_none_iff_exists'.mp hmapped
  exact ⟨r, Reg.addr_of_ofAddr a r hr⟩

namespace Machine

/-- What the host last read is no register, so recording it changes nothing the port reads (R55). -/
@[simp] theorem State.portRead_with_readData (s : State) (d : Option Byte) (a : Byte) :
    State.portRead { s with readData := d } a = s.portRead a := rfl

/-- Storing a register leaves every other address as it reads (R55). -/
theorem sameRegsExcept_setReg (s : State) (r : Reg) (v : Byte) : SameRegsExcept [r.addr] s (s.setReg r v) := by
  refine sameRegsExcept_of_reg fun q hq => ?_
  have hne : q ≠ r := by
    rintro rfl
    exact hq (List.mem_singleton_self _)
  rw [State.reg_setReg, if_neg (hne ·.1)]

/-- A port write outside CMD and outside the addresses the host may write is ignored (R52, R53). -/
theorem State.portWrite_ignored (s : State) {a : Byte} (v : Byte) (hcmd : a ≠ cmdAddr)
    (hrw : ¬ (a.toNat < 0x0C ∨ (0x10 ≤ a.toNat ∧ a.toNat ≤ 0x1F))) : s.portWrite a v = s := by
  rcases s.portWrite_cases v hcmd with h | ⟨r, rfl, hkind, -⟩
  · exact h
  · exact absurd (r.kind_eq_rw_iff.mp hkind) hrw

/-- The RSSI operand as an unsigned number: RSSI_HI is the high octet (R57). -/
theorem toNat_append_octets (hi lo : Byte) : (hi ++ lo).toNat = hi.toNat * 256 + lo.toNat := by
  rw [BitVec.toNat_append, ← Nat.shiftLeft_add_eq_or_of_lt lo.isLt, Nat.shiftLeft_eq]

/-- Settles O13: no register is mapped at a reserved address. -/
theorem reservedAddressesReadZeroIgnoreWrites : Obligations.ReservedAddressesReadZeroIgnoreWrites := by
  intro a v s ha
  rw [exec_rd, exec_wr, s.portRead_reserved ha, s.portWrite_reserved v ha]
  exact ⟨rfl, rfl⟩

/-- Settles O14: the two ranges lie outside CMD and outside the addresses the host may write. -/
theorem readOnlyRegistersIgnoreWrites : Obligations.ReadOnlyRegistersIgnoreWrites := by
  refine ⟨fun a v s ha => ?_, exec_rd_reg .cmd⟩
  have hcmd : a ≠ cmdAddr := by
    rintro rfl
    exact absurd ha (by decide)
  rw [exec_wr, s.portWrite_ignored v hcmd (by omega)]

/-- Settles O15: a read records the octet alone, and a write stores the one register of its address. -/
theorem readsAreIdempotentWritesAreLocal : Obligations.ReadsAreIdempotentWritesAreLocal := by
  refine ⟨fun a s => ⟨_, exec_rd a s, s.portRead_with_readData _, rfl⟩, fun a v s ha => ?_⟩
  obtain ⟨r, rfl⟩ := Reg.exists_addr_eq (a := a) (by omega)
  have hrw : r.kind = .rw := r.kind_eq_rw_iff.mpr ha
  refine ⟨_, exec_wr_reg r v s hrw, ?_, sameRegsExcept_setReg s r v, ?_⟩
  · rw [State.portRead_addr, State.reg_setReg, if_pos ⟨rfl, hrw⟩]
  · exact ⟨s.setReg_params r v, s.setReg_port r v, s.setReg_readData r v⟩

/-- Settles O30: the sign of the operand is the top bit of RSSI_HI, and the magnitude is the law of `rssiMag`. -/
theorem rssiMagnitudeSaturates : Obligations.RssiMagnitudeSaturates := by
  refine ⟨fun s => ?_, fun v _ _ => ?_⟩
  · have hlo : s.rssiLo.toNat < 256 := s.rssiLo.isLt
    rw [State.rssiValue, BitVec.toInt_eq_toNat_cond, toNat_append_octets]
    split <;> split <;> omega
  · rw [rssiMag_toNat, Nat.cast_min, Int.natCast_natAbs]
    rfl

end Machine

end Sys2Proof
end

section
/-! The encodings of spec/30_encoding.md (R75–R78): decode against the number of a word, and decode and encode as inverses. -/

namespace Sys2Proof

/-- Settles O4: the fields of the encoder's words; a command's word is the write of its value to CMD. -/
theorem decodeOfEncode : Obligations.DecodeOfEncode := by
  intro i hi
  cases i with
  | rd a => simp [encode, decode]
  | wr a v =>
    have ha : a ≠ cmdAddr := bne_iff_ne.mp hi
    simp [encode, decode, ha]
  | reservedCmd v =>
    rw [encode, decode_write_cmd, decodeCommand_reserved v (of_decide_eq_true hi)]
  | nop | enc | dec | nxt | acc | rpt | rxp => exact decode_write_cmd _

/-- The A field of a word given by its number. -/
theorem aField_eq_ofNat (w : TxWord) : aField w = BitVec.ofNat 8 (w.toNat / 256) :=
  BitVec.eq_of_toNat_eq (by rw [aField_toNat, BitVec.toNat_ofNat])

/-- The D field of a word given by its number. -/
theorem dField_eq_ofNat (w : TxWord) : dField w = BitVec.ofNat 8 w.toNat :=
  BitVec.eq_of_toNat_eq (by rw [dField_toNat, BitVec.toNat_ofNat])

/-- A word below 0x10000 is a read. -/
theorem wField_eq_false {w : TxWord} (h : w.toNat < 0x10000) : wField w = false := by
  rw [wField_eq, decide_eq_false h.not_ge]

/-- A word from 0x10000 on is a write. -/
theorem wField_eq_true {w : TxWord} (h : 0x10000 ≤ w.toNat) : wField w = true := by
  rw [wField_eq, decide_eq_true h]

/-- The write words with the address CMD are 0x10C00 to 0x10CFF. -/
theorem aField_eq_cmdAddr_iff {w : TxWord} (h : 0x10000 ≤ w.toNat) : aField w = cmdAddr ↔ w.toNat / 256 = 0x10C := by
  have hw := w.isLt
  have hcmd : cmdAddr.toNat = 0x0C := rfl
  rw [← BitVec.toNat_inj, aField_toNat, hcmd]
  omega

/-- The opcode map by the number of the word that writes the value to CMD (R75, R76). -/
theorem decodeCommand_eq_of_word (v : Byte) : decodeCommand v =
    if v.toNat + 0x10C00 = 0x10C00 then .nop
    else if v.toNat + 0x10C00 = 0x10C01 then .enc
    else if v.toNat + 0x10C00 = 0x10C02 then .dec
    else if v.toNat + 0x10C00 = 0x10C03 then .nxt
    else if v.toNat + 0x10C00 = 0x10C04 then .acc
    else if v.toNat + 0x10C00 = 0x10C05 then .rpt
    else if v.toNat + 0x10C00 = 0x10C06 then .rxp
    else .reservedCmd v := by
  unfold decodeCommand
  split <;> simp_all

/-- Settles O2: the W and A fields by the word's number, and for CMD the command map against the word's last octet. -/
theorem everyWordIsAReadOrAWrite : Obligations.EveryWordIsAReadOrAWrite := by
  refine fun w => ⟨fun hread => ?_, fun hwrite haddr => ?_, fun haddr => ?_⟩
  · simp [decode, wField_eq_false hread, aField_eq_ofNat]
  · have ha : aField w ≠ cmdAddr := mt (aField_eq_cmdAddr_iff hwrite).mp haddr
    rw [decode, if_pos (wField_eq_true hwrite), if_neg ha, aField_eq_ofNat, dField_eq_ofNat]
  · have hwrite : 0x10000 ≤ w.toNat := by omega
    have hword : w.toNat = (dField w).toNat + 0x10C00 := by
      rw [dField_toNat]
      omega
    rw [decode, if_pos (wField_eq_true hwrite), if_pos ((aField_eq_cmdAddr_iff hwrite).mpr haddr), ← dField_eq_ofNat, hword]
    exact decodeCommand_eq_of_word _

/-- The word of a write as a number (R77). -/
theorem writeWord_toNat (a v : Byte) : (writeWord a v).toNat = 0x10000 + a.toNat * 256 + v.toNat := by
  simp [word_toNat (writeWord a v)]

/-- The canonical word of a read as a number (R77). -/
theorem readWord_toNat (a : Byte) : (readWord a).toNat = a.toNat * 256 := by
  simp [word_toNat (readWord a)]

/-- Settles O3: a write's and a read's word by their fields; the defined commands are closed words. -/
theorem encodedWordAsANumber : Obligations.EncodedWordAsANumber :=
  ⟨writeWord_toNat, readWord_toNat, writeWord_toNat cmdAddr, rfl, rfl, rfl, rfl, rfl, rfl, rfl⟩

/-- The word of the command a value names is the write of that value to CMD (R75–R77). -/
theorem encode_decodeCommand : ∀ v : Byte, encode (decodeCommand v) = writeWord cmdAddr v := by decide

/-- A write is the word its address and data make. -/
theorem writeWord_fields {w : TxWord} (h : wField w = true) : writeWord (aField w) (dField w) = w :=
  word_ext (by rw [wField_writeWord, h]) (aField_writeWord ..) (dField_writeWord ..)

/-- A read with its D field cleared is the canonical word of its address (R77). -/
theorem readWord_aField (w : TxWord) : readWord (aField w) = w &&& 0x0FF00#17 := by
  refine word_ext ?_ ?_ ?_
  · rw [wField_readWord]
    simp [wField]
  · rw [aField_readWord]
    exact (BitVec.extractLsb'_and.trans BitVec.and_allOnes).symm
  · rw [dField_readWord]
    exact (BitVec.extractLsb'_and.trans BitVec.and_zero).symm

/-- Settles O5: a word is put together from its fields again, through the command map for a write to CMD. -/
theorem encodeOfDecode : Obligations.EncodeOfDecode := by
  refine fun w => ⟨decode_wellFormed w, ?_⟩
  change _ = if wField w = true then w else _
  by_cases hw : wField w = true
  · rw [if_pos hw, decode, if_pos hw]
    split
    next ha => rw [encode_decodeCommand, ← ha, writeWord_fields hw]
    next => exact writeWord_fields hw
  · rw [if_neg hw, decode, if_neg hw]
    exact readWord_aField w

/-- Settles O1: twelve closed words, decoded. -/
theorem writtenWordsDecode : Obligations.WrittenWordsDecode := by
  unfold Obligations.WrittenWordsDecode
  decide

end Sys2Proof
end

section
/-! The type codes a command compares (spec/30_encoding.md R73): what a change of the parameters leaves the same. -/

namespace Sys2Proof.Machine

/-- The block of `s` built with other parameters, the change of them given by `f`. -/
def State.mapParams (f : Params → Params) (s : State) : State := { s with params := f s.params }

/-- The change of MT_REQUEST_REPORT to `x`. -/
def setRequestCode (x : Byte) (p : Params) : Params := { p with mtRequestReport := x }

/-- The change of MT_RESPONSE_REPORT to `x`. -/
def setResponseCode (x : Byte) (p : Params) : Params := { p with mtResponseReport := x }

variable (s : State) (f : Params → Params) (x : Byte)

/-- ENC reads no parameter (R73, R110). -/
theorem encCommand_mapParams : encCommand (s.mapParams f) = (encCommand s).mapParams f := by
  simp only [encCommand, apply_ite (State.mapParams f)]
  rfl

/-- DEC reads no parameter (R73, R112). -/
theorem decCommand_mapParams : decCommand (s.mapParams f) = (decCommand s).mapParams f := rfl

/-- NXT reads no parameter (R120). -/
theorem nxtCommand_mapParams : nxtCommand (s.mapParams f) = (nxtCommand s).mapParams f := rfl

/-- ACC reads no parameter (R122). -/
theorem accCommand_mapParams : accCommand (s.mapParams f) = (accCommand s).mapParams f := rfl

/-- RPT does not read the request code (R73, R136). -/
theorem rptCommand_setRequestCode : rptCommand (s.mapParams (setRequestCode x)) = (rptCommand s).mapParams (setRequestCode x) := by
  simp only [rptCommand, apply_ite (State.mapParams (setRequestCode x))]
  rfl

/-- The checks of RXP do not read the request code (R73, R137). -/
theorem State.validate_setRequestCode : (s.mapParams (setRequestCode x)).validate = s.validate.mapParams (setRequestCode x) := by
  simp only [State.validate, apply_ite (State.mapParams (setRequestCode x))]
  rfl

/-- RXP under DEDUP_FIRST is its checks on the frame just received (R137). -/
theorem rxpCommand_of_dedupFirst {s : State} (h : s.params.rxpOrder = .dedupFirst) : rxpCommand s = s.received.validate := by
  simp [rxpCommand, h]

/-- RXP under TYPE_FIRST ends on a bad type before its duplicate check (R137). -/
theorem rxpCommand_of_typeFirst {s : State} (h : s.params.rxpOrder = .typeFirst) :
    rxpCommand s = if s.received.isResponse = false then s.received.badType else s.received.validate := by
  simp [rxpCommand, h]

/-- RXP does not read the request code (R73, R137). -/
theorem rxpCommand_setRequestCode : rxpCommand (s.mapParams (setRequestCode x)) = (rxpCommand s).mapParams (setRequestCode x) := by
  have hchecks := s.received.validate_setRequestCode x
  cases ho : s.params.rxpOrder with
  | dedupFirst =>
    rw [rxpCommand_of_dedupFirst ho, ← hchecks]
    exact rxpCommand_of_dedupFirst (s := s.mapParams (setRequestCode x)) ho
  | typeFirst =>
    rw [rxpCommand_of_typeFirst ho, apply_ite (State.mapParams (setRequestCode x)), ← hchecks]
    exact rxpCommand_of_typeFirst (s := s.mapParams (setRequestCode x)) ho

/-- No command reads the request code (R73, R104). -/
theorem performCommand_setRequestCode (v : Byte) :
    performCommand v (s.mapParams (setRequestCode x)) = (performCommand v s).mapParams (setRequestCode x) := by
  unfold performCommand
  split
  · rfl
  · exact encCommand_mapParams s _
  · exact decCommand_mapParams s _
  · exact nxtCommand_mapParams s _
  · exact accCommand_mapParams s _
  · exact rptCommand_setRequestCode s x
  · exact rxpCommand_setRequestCode s x
  · rfl

/-- A port read finds no parameter: they are no registers (R183). -/
theorem State.portRead_mapParams (a : Byte) : (s.mapParams f).portRead a = s.portRead a := by
  cases hr : Reg.ofAddr a with
  | none => simp only [State.portRead, hr]
  | some r =>
    obtain rfl := Reg.addr_of_ofAddr a r hr
    rw [State.portRead_addr, State.portRead_addr]
    cases r <;> rfl

/-- Storing a register reads no parameter (R101). -/
theorem State.setReg_mapParams (r : Reg) (v : Byte) : (s.mapParams f).setReg r v = (s.setReg r v).mapParams f := by
  cases r <;> rfl

/-- A port write does not read the request code (R73, R101). -/
theorem State.portWrite_setRequestCode (a v : Byte) :
    (s.mapParams (setRequestCode x)).portWrite a v = (s.portWrite a v).mapParams (setRequestCode x) := by
  cases hr : Reg.ofAddr a with
  | none => simp only [State.portWrite, hr]
  | some r =>
    obtain rfl := Reg.addr_of_ofAddr a r hr
    rw [State.portWrite_addr, State.portWrite_addr]
    cases hk : r.kind with
    | rw => exact s.setReg_mapParams _ r v
    | wo => exact performCommand_setRequestCode s x v
    | ro => rfl

/-- ENC, DEC, NXT and ACC read no parameter at all (R73). -/
theorem exec_mapParams {i : Instr} {s t : State} (hi : i = .enc ∨ i = .dec ∨ i = .nxt ∨ i = .acc) (h : exec i s = .next t) :
    exec i (s.mapParams f) = .next (t.mapParams f) := by
  rcases hi with rfl | rfl | rfl | rfl <;> cases h
  · rw [exec_enc, encCommand_mapParams]
  · rw [exec_dec, decCommand_mapParams]
  · rw [exec_nxt, nxtCommand_mapParams]
  · rw [exec_acc, accCommand_mapParams]

/-- No instruction reads the request code (R73). -/
theorem exec_setRequestCode {i : Instr} {s t : State} (h : exec i s = .next t) :
    exec i (s.mapParams (setRequestCode x)) = .next (t.mapParams (setRequestCode x)) := by
  cases i with
  | rd a =>
    cases h
    rw [exec_rd, s.portRead_mapParams]
    rfl
  | wr a v =>
    cases h
    rw [exec_wr, s.portWrite_setRequestCode]
  | nop => cases h; rfl
  | enc | dec | nxt | acc => exact exec_mapParams _ (by decide) h
  | rpt => cases h; rw [exec_rpt, rptCommand_setRequestCode]
  | rxp => cases h; rw [exec_rxp, rxpCommand_setRequestCode]
  | reservedCmd v => cases h; rfl

/-- Settles O50: no instruction reads the request code, and the four named ones no parameter at all. -/
theorem onlyTheResponseCodeIsCompared : Obligations.OnlyTheResponseCodeIsCompared :=
  ⟨fun _ _ _ x h => exec_setRequestCode x h, fun _ _ _ x hi h => exec_mapParams (setResponseCode x) hi h⟩

end Sys2Proof.Machine
end

section
/-! The bus at the port (spec/40_bus_command.md R100–R104): what a RD and a WR do at each address, and how a write to CMD starts
a command. -/

namespace Sys2Proof

/-- The word that writes a value to CMD decodes to the command of that value (R75, R76). -/
theorem decode_cmdWord (v : Byte) : decode (0x10C00#17 ||| v.setWidth 17) = decodeCommand v :=
  decode_write_cmd v

namespace Machine

/-- A read at a register's address, the address given by an equation. -/
theorem State.portRead_eq_reg (s : State) {a : Byte} {r : Reg} (h : a = r.addr) : s.portRead a = s.reg r := by
  rw [h, State.portRead_addr]

/-- A write at the address of a register the host may write, the address given by an equation. -/
theorem exec_wr_eq_setReg (s : State) {a : Byte} (v : Byte) {r : Reg} (hrw : r.kind = .rw) (h : a = r.addr) :
    exec (.wr a v) s = .next (s.setReg r v) := by
  rw [h, exec_wr_reg r v s hrw]

/-- A write to CMD performs the command its value decodes to (R101). -/
theorem exec_wr_cmd (v : Byte) (s : State) : exec (.wr cmdAddr v) s = exec (decodeCommand v) s :=
  (exec_decodeCommand v s).symm

/-- The registers from 0x2D on are the report registers, so they read 0x00 once the report is cleared (R41–R44, R135). -/
theorem State.reg_eq_zero_of_no_report {s : State} (hrpt : s.rpt = ReportRegs.zero) {r : Reg} (hr : 0x2D ≤ r.addr.toNat) :
    s.reg r = 0x00#8 := by
  cases r with
  | fb i => exact absurd hr (by revert i; decide)
  | txPay j => exact absurd hr (by revert j; decide)
  | rxPay j => exact absurd hr (by revert j; decide)
  | rptText k => rw [State.reg, hrpt]; exact reportRegs_zero_text k
  | rptAux k => rw [State.reg, hrpt]; revert k; decide
  | rptId | rptRssi | rptLen | rptDecl => rw [State.reg, hrpt]; rfl
  | _ => exact absurd hr (by decide)

/-- In a coherent state without a report the addresses 0x2D to 0x38 read 0x00 (R100). -/
theorem Coherent.portRead_report {s : State} (hs : Coherent s) (hnone : s.flag .rptValid = false) {a : Byte}
    (hlo : 0x2D ≤ a.toNat) (hhi : a.toNat ≤ 0x38) : s.portRead a = 0x00#8 := by
  obtain ⟨r, rfl⟩ := Reg.exists_addr_eq (a := a) (by omega)
  rw [State.portRead_addr, State.reg_eq_zero_of_no_report (hs.no_report_zero hnone) hlo]

/-- Settles O11: each clause is the port read at the address of the register it names. -/
theorem readReturnsTheMappedRegister : Obligations.ReadReturnsTheMappedRegister := by
  refine ⟨fun w hread => ?_, fun a s => ⟨s.portRead a, exec_rd a s, ?_⟩⟩
  · have hw : wField w = false := hread
    rw [decode, hw]
    rfl
  exact ⟨
    fun i h => s.portRead_eq_reg (r := .fb i) (BitVec.toNat_eq_nat.mp h).2,
    s.portRead_eq_reg (r := .cmd), s.portRead_eq_reg (r := .status), s.portRead_eq_reg (r := .cyc),
    s.portRead_eq_reg (r := .seqOut), s.portRead_eq_reg (r := .txCyc), s.portRead_eq_reg (r := .txType),
    s.portRead_eq_reg (r := .txId), s.portRead_eq_reg (r := .txPlen),
    fun j h => s.portRead_eq_reg (r := .txPay j) (BitVec.toNat_eq_nat.mp h).2,
    s.portRead_eq_reg (r := .accIn), s.portRead_eq_reg (r := .rssiLo), s.portRead_eq_reg (r := .rssiHi),
    s.portRead_eq_reg (r := .rxCyc), s.portRead_eq_reg (r := .rxType), s.portRead_eq_reg (r := .rxId),
    fun j h => s.portRead_eq_reg (r := .rxPay j) (BitVec.toNat_eq_nat.mp h).2,
    s.portRead_eq_reg (r := .rxpRes), s.portRead_eq_reg (r := .rptId), s.portRead_eq_reg (r := .rptRssi),
    s.portRead_eq_reg (r := .rptLen),
    fun k h => s.portRead_eq_reg (r := .rptText k) (BitVec.toNat_eq_nat.mp h).2,
    fun k h => s.portRead_eq_reg (r := .rptAux k) (BitVec.toNat_eq_nat.mp h).2,
    s.portRead_eq_reg (r := .rptDecl),
    s.portRead_reserved,
    fun hs hnone hlo hhi => hs.portRead_report hnone hlo hhi⟩

/-- Settles O12: a RW address stores its register, CMD dispatches, and every other address ignores the write. -/
theorem writeStoresTheMappedRegister : Obligations.WriteStoresTheMappedRegister := by
  refine ⟨fun w hwrite ha => ?_, fun a v s => ?_⟩
  · have hw : wField w = true := hwrite
    have hcmd : aField w ≠ cmdAddr := ha
    rw [decode, if_pos hw, if_neg hcmd]
    rfl
  refine ⟨
    fun i h => exec_wr_eq_setReg s v (r := .fb i) rfl (BitVec.toNat_eq_nat.mp h).2,
    exec_wr_eq_setReg s v (r := .txCyc) rfl, exec_wr_eq_setReg s v (r := .txType) rfl,
    exec_wr_eq_setReg s v (r := .txId) rfl, exec_wr_eq_setReg s v (r := .txPlen) rfl,
    fun j h => exec_wr_eq_setReg s v (r := .txPay j) rfl (BitVec.toNat_eq_nat.mp h).2,
    exec_wr_eq_setReg s v (r := .accIn) rfl, exec_wr_eq_setReg s v (r := .rssiLo) rfl,
    exec_wr_eq_setReg s v (r := .rssiHi) rfl, ?_, fun hro => ?_⟩
  · rintro rfl
    rw [decode_cmdWord]
    exact exec_wr_cmd v s
  · simp only [← BitVec.toNat_inj, BitVec.toNat_ofNat] at hro
    have hcmd : a ≠ cmdAddr := by
      rintro rfl
      exact absurd hro (by decide)
    rw [exec_wr, s.portWrite_ignored v hcmd (by omega)]

/-- Clearing ILL_CMD a second time changes nothing. -/
theorem State.beginCommand_beginCommand (s : State) : s.beginCommand.beginCommand = s.beginCommand := by
  have hstatus : s.beginCommand.beginCommand.status = s.beginCommand.status := by
    simp only [State.beginCommand_status, statusSet_false, BitVec.and_assoc, BitVec.and_self]
  exact congrArg (fun st => { s with status := st }) hstatus

/-- A defined command clears ILL_CMD first, so it does the same where the bit is clear already (R104). -/
theorem performCommand_beginCommand {v : Byte} (hv : v.toNat ≤ 0x06) (s : State) :
    performCommand v s.beginCommand = performCommand v s := by
  unfold performCommand
  split
  case h_8 => grind
  all_goals
    simp only [nopCommand, encCommand, decCommand, nxtCommand, accCommand, rptCommand, rxpCommand,
      State.beginCommand_beginCommand]

/-- No defined command leaves ILL_CMD set (R31, R104). -/
theorem flag_illCmd_performCommand {v : Byte} (hv : v.toNat ≤ 0x06) (s : State) :
    (performCommand v s).flag .illCmd = false := by
  unfold performCommand
  split
  · exact flag_nopCommand s .illCmd
  · exact flag_encCommand s .illCmd
  · exact flag_decCommand s .illCmd
  · exact flag_nxtCommand s .illCmd
  · exact flag_accCommand s .illCmd
  · exact flag_rptCommand s .illCmd
  · exact flag_rxpCommand s .illCmd
  · grind

/-- Settles O18: a defined value's command also starts from ILL_CMD clear, and any other value is the reserved command. -/
theorem commandDispatchClearsIllCmd : Obligations.CommandDispatchClearsIllCmd := by
  refine fun v s => ⟨fun hdefined => ⟨?_, performCommand v s, rfl, flag_illCmd_performCommand hdefined s⟩, fun hreserved => ?_⟩
  · rw [decode_cmdWord, exec_decodeCommand]
    exact congrArg Host.Outcome.next (performCommand_beginCommand hdefined s).symm
  · exact (exec_wr_cmd v s).trans (congrArg (exec · s) (decodeCommand_reserved v hreserved))

/-- Settles O16: NOP is the clearing of ILL_CMD every defined command begins with. -/
theorem nopClearsIllCmdOnly : Obligations.NopClearsIllCmdOnly :=
  ⟨decode_cmdWord 0x00#8, exec_nop⟩

/-- Settles O17: the value decodes through the command map, and the command raises ILL_CMD. -/
theorem reservedCommandSetsIllCmdOnly : Obligations.ReservedCommandSetsIllCmdOnly :=
  fun v s hv => ⟨(decode_cmdWord v).trans (decodeCommand_reserved v hv), exec_reservedCmd v s⟩

end Machine

end Sys2Proof
end

section
/-! The frame of every command (spec/40_bus_command.md R102, R103 and the rules of the commands): which registers and STATUS bits
each one writes, and that it leaves the others and the environment. -/

namespace Sys2Proof

/-- The instruction is a command, neither a RD nor a WR. -/
def Instr.isCommand : Instr → Bool
  | .rd _ | .wr _ _ => false
  | _ => true

/-- Whether command `i` may write a register, by the rule of each register (R21–R44): every command may write STATUS, and none
an operand register of the host's. -/
def Reg.writtenBy (i : Instr) : Reg → Bool
  | .status => true
  | .fb _ => i = .enc
  | .cyc => i = .nxt ∨ i = .acc ∨ i = .rxp
  | .seqOut => i = .nxt
  | .rxCyc | .rxType | .rxId | .rxPay _ => i = .dec ∨ i = .rxp
  | .rxpRes => i = .rxp
  | .rptId | .rptRssi | .rptLen | .rptText _ | .rptAux _ | .rptDecl => i = .rpt ∨ i = .rxp
  | .cmd | .txCyc | .txType | .txId | .txPlen | .txPay _ | .accIn | .rssiLo | .rssiHi => false

/-- A command is no WR. -/
theorem Instr.ne_wr_of_isCommand {i : Instr} (hi : i.isCommand = true) (a v : Byte) : i ≠ .wr a v := by
  rintro rfl
  cases hi

namespace Machine

/-- Whether command `i` may write a STATUS bit, by the rule of each bit (R24–R31): every command may write ILL_CMD. -/
def Flag.writtenBy (i : Instr) : Flag → Bool
  | .encErr => i = .enc
  | .decValid => i = .dec ∨ i = .rxp
  | .accNew => i = .acc ∨ i = .rxp
  | .rptValid | .typeErr | .lenClamp | .noData => i = .rpt ∨ i = .rxp
  | .illCmd => true

section

variable {i : Instr} {s t : State} (hi : i.isCommand = true) (h : exec i s = .next t)

include hi h

/-- A command leaves every register that is not its own to write. -/
theorem exec_reg_eq {r : Reg} (hr : r.writtenBy i = false) : t.reg r = s.reg r := by
  have hwr := i.ne_wr_of_isCommand hi
  have hown := exec_writesOnlyItsOwn (hwr cmdAddr) h
  obtain ⟨htx, hplen, haccIn, hlo, hhi⟩ := hown.operands hwr
  cases r with
  | status => cases hr
  | cmd => rfl
  | fb j => rw [State.reg, State.reg, hown.fb (of_decide_eq_false hr) hwr]
  | cyc =>
    simp only [Reg.writtenBy, decide_eq_false_iff_not, not_or] at hr
    obtain ⟨hnxt, hacc, hrxp⟩ := hr
    exact hown.cyc hnxt hacc hrxp
  | seqOut => exact hown.seqOut (of_decide_eq_false hr)
  | rxpRes => exact hown.rxpRes (of_decide_eq_false hr)
  | txCyc | txType | txId | txPay => rw [State.reg, State.reg, htx]
  | txPlen => exact hplen
  | accIn => exact haccIn
  | rssiLo => exact hlo
  | rssiHi => exact hhi
  | rxCyc | rxType | rxId | rxPay =>
    obtain ⟨hdec, hrxp⟩ := not_or.mp (of_decide_eq_false hr)
    rw [State.reg, State.reg, hown.rx hdec hrxp]
  | rptId | rptRssi | rptLen | rptText | rptAux | rptDecl =>
    obtain ⟨hrpt, hrxp⟩ := not_or.mp (of_decide_eq_false hr)
    rw [State.reg, State.reg, hown.rpt hrpt hrxp]

/-- A command leaves what the port reads at every address whose register is not its own to write. -/
theorem exec_portRead_eq {a : Byte} (ha : (Reg.ofAddr a).any (Reg.writtenBy i) = false) : t.portRead a = s.portRead a := by
  cases hr : Reg.ofAddr a with
  | none => simp only [State.portRead, hr]
  | some r =>
    rw [hr, Option.any_some] at ha
    obtain rfl := Reg.addr_of_ofAddr a r hr
    rw [State.portRead_addr, State.portRead_addr, exec_reg_eq hi h ha]

/-- A command's frame by addresses: a list that names every register the command may write. -/
theorem exec_sameRegsExcept {changed : List Byte}
    (hlisted : ∀ a : Byte, a ∉ changed → (Reg.ofAddr a).any (Reg.writtenBy i) = false) : SameRegsExcept changed s t :=
  fun a ha => exec_portRead_eq hi h (hlisted a ha)

/-- A command leaves every STATUS bit that is not its own to write. -/
theorem exec_flag_eq {g : Flag} (hg : g.writtenBy i = false) : t.flag g = s.flag g := by
  have hown := exec_writesOnlyItsOwn (i.ne_wr_of_isCommand hi cmdAddr) h
  cases g with
  | illCmd => cases hg
  | encErr => exact hown.encErr (of_decide_eq_false hg)
  | decValid =>
    obtain ⟨hdec, hrxp⟩ := not_or.mp (of_decide_eq_false hg)
    exact hown.decValid hdec hrxp
  | accNew =>
    obtain ⟨hacc, hrxp⟩ := not_or.mp (of_decide_eq_false hg)
    exact hown.accNew hacc hrxp
  | rptValid | typeErr | lenClamp | noData =>
    obtain ⟨hrpt, hrxp⟩ := not_or.mp (of_decide_eq_false hg)
    exact hown.reportFlag hrpt hrxp _ (by decide)

/-- A command leaves STATUS under a mask without the bits that are its own to write. -/
theorem exec_status_and_eq {m : Byte} (hm : ∀ g : Flag, (g.writtenBy i && statusGet m g) = false) :
    t.status &&& m = s.status &&& m := by
  refine status_ext fun g => ?_
  have hand (st : Byte) : statusGet (st &&& m) g = (statusGet st g && statusGet m g) := BitVec.getLsbD_and
  rw [hand, hand]
  cases hg : g.writtenBy i with
  | false => exact congrArg (· && statusGet m g) (exec_flag_eq hi h hg)
  | true =>
    have hmasked : statusGet m g = false := by simpa [hg] using hm g
    rw [hmasked, Bool.and_false, Bool.and_false]

/-- A command leaves the parameters, the host's schedule and the octet it last read. -/
theorem exec_sameEnvironment : SameEnvironment s t := by
  cases i with
  | rd a | wr a v => cases hi
  | nop | dec | nxt | acc | reservedCmd v => cases h; exact ⟨rfl, rfl, rfl⟩
  | enc => cases h; obtain ⟨W, st, hframe⟩ := encCommand_frame s; rw [hframe]; exact ⟨rfl, rfl, rfl⟩
  | rpt => cases h; obtain ⟨r, st, hframe⟩ := rptCommand_frame s; rw [hframe]; exact ⟨rfl, rfl, rfl⟩
  | rxp => cases h; obtain ⟨c, res, r, st, hframe⟩ := rxpCommand_frame s; rw [hframe]; exact ⟨rfl, rfl, rfl⟩

end

/-- A state that differs in STATUS alone reads alike at every address but STATUS (R102, R103). -/
theorem sameRegsExcept_status (s : State) (st : Byte) : SameRegsExcept [0x0D#8] s { s with status := st } :=
  sameRegsExcept_of_reg fun r hr => by
    cases r with
    | status => exact absurd (List.mem_singleton_self _) hr
    | _ => rfl

/-- Settles O49: the frame laws of commands, each listed address and mask bit checked against what the command may write. -/
theorem commandFrames : Obligations.CommandFrames := by
  refine fun s t => ⟨fun h => ?nop, fun v h => ?reservedCmd, fun h => ?enc, fun h => ?dec, fun h => ?nxt, fun h => ?acc,
    fun h => ?rpt, fun h => ?rxp⟩
  case nop => cases h; exact ⟨sameRegsExcept_status s _, rfl, rfl, rfl⟩
  case reservedCmd => cases h; exact ⟨sameRegsExcept_status s _, rfl, rfl, rfl⟩
  case rxp =>
    have hlisted : ∀ a : Byte, a ≠ 0x0D#8 → a ≠ 0x0E#8 → (a.toNat < 0x20 ∨ 0x38 < a.toNat) →
        (Reg.ofAddr a).any (Reg.writtenBy .rxp) = false := by decide
    refine ⟨fun a hstatus hcyc ha => exec_portRead_eq rfl h (hlisted a hstatus hcyc ha), exec_sameEnvironment rfl h,
      exec_status_and_eq rfl h fun g => ?_⟩
    cases g <;> rfl
  all_goals
    refine ⟨exec_sameRegsExcept rfl h (by decide), exec_sameEnvironment rfl h, exec_status_and_eq rfl h fun g => ?_⟩
    cases g <;> rfl

end Machine

end Sys2Proof
end

section
/-! The Frame Codec (spec/41_frame_codec.md R110–R114): ENC and DEC as whole-state updates, and the round trip both ways. -/

namespace Sys2Proof.Machine

/-- ENC within the capacity as one update of the state: FB takes the wire image, and ILL_CMD and ENC_ERR are cleared (R110). -/
theorem exec_enc_of_le {s : State} (h : s.txPlen.toNat ≤ payloadCap) : exec .enc s = .next { s with
    fb := encodeFrame s.tx.cycle s.tx.messageType s.tx.peripheralId s.txPlen.toNat s.tx.payload
    status := s.status &&& 0x7E#8 } := by
  have hmask : statusSet (statusSet s.status .illCmd false) .encErr false = s.status &&& 0x7E#8 := by
    rw [statusSet_false, statusSet_false, BitVec.and_assoc]
    rfl
  rw [exec_enc, encCommand_of_le s h.not_gt, ← hmask]
  rfl

/-- A sequence whose first instruction answers a next state runs the rest from there. -/
theorem execAll_cons {i : Instr} {s t : State} (h : exec i s = .next t) (is : List Instr) :
    execAll (i :: is) s = execAll is t := by
  rw [execAll, h]

/-- Decoding an encoded frame gives it back, its payload padded with 0x00 (R114). -/
theorem decodeFrame_encodeFrame (c t p : Byte) (n : Nat) (P : Vector Byte 9) :
    (decodeFrame (encodeFrame c t p n P)).cycle = c ∧ (decodeFrame (encodeFrame c t p n P)).messageType = t ∧
    (decodeFrame (encodeFrame c t p n P)).peripheralId = p ∧
    ∀ j : Fin 9, (decodeFrame (encodeFrame c t p n P)).payload[j] = if j.val < n then P[j] else 0x00#8 :=
  ⟨encodeFrame_cycle c t p n P, encodeFrame_messageType c t p n P, encodeFrame_peripheralId c t p n P,
    fun j => (decodeFrame_payload _ j j.isLt).trans (encodeFrame_payload c t p n P j j.isLt)⟩

/-- Encoding the whole frame at twelve octets gives the octets back (R114). -/
theorem encodeFrame_decodeFrame (W : Vector Byte 12) :
    encodeFrame (decodeFrame W).cycle (decodeFrame W).messageType (decodeFrame W).peripheralId payloadCap
      (decodeFrame W).payload = W := by
  refine Vector.ext fun i hi => ?_
  match i with
  | 0 => exact encodeFrame_cycle ..
  | 1 => exact encodeFrame_messageType ..
  | 2 => exact encodeFrame_peripheralId ..
  | j + 3 =>
    have hj : j < payloadCap := Nat.lt_of_add_lt_add_right hi
    simp only [Nat.add_comm j 3]
    rw [encodeFrame_payload _ _ _ _ _ j hj, if_pos hj, decodeFrame_payload W j hj]

/-- Settles O21: the two round trips of the pure codec. -/
theorem codecRoundTrip : Obligations.CodecRoundTrip :=
  ⟨fun c t p n P _ => decodeFrame_encodeFrame c t p n P, encodeFrame_decodeFrame⟩

/-- Settles O19: within the capacity the wire image octet by octet, beyond it the error alone. -/
theorem encBuildsTheFrame : Obligations.EncBuildsTheFrame := by
  refine ⟨decode_cmdWord 0x01#8, fun s => ⟨fun hle => ?_, fun hgt => ?_⟩⟩
  · exact ⟨_, exec_enc_of_le hle, encodeFrame_cycle .., encodeFrame_messageType .., encodeFrame_peripheralId ..,
      fun j => encodeFrame_payload _ _ _ _ _ j j.isLt⟩
  · rw [exec_enc, encCommand_of_gt s hgt]
    rfl

/-- Settles O22: DEC decodes the wire image ENC has put into FB, which is the round trip of the codec. -/
theorem encThenDecGivesTheFrameBack : Obligations.EncThenDecGivesTheFrameBack :=
  fun _ hle => ⟨_, execAll_cons (exec_enc_of_le hle) [.dec], frameAt_decodeFrame _, decodeFrame_encodeFrame ..⟩

/-- Settles O20: DEC loads the frame at FB. -/
theorem decLoadsTheFrame : Obligations.DecLoadsTheFrame :=
  ⟨decode_cmdWord 0x02#8, fun s => ⟨decodeFrame s.fb, frameAt_decodeFrame s.fb, exec_dec s⟩⟩

end Sys2Proof.Machine
end

section
/-! The Cycle Sequencer (spec/42_cycle_sequencer.md R120–R125): NXT and ACC as whole-state updates, and the laws of two NXTs and
of three ACCs. -/

namespace Sys2Proof.Machine

/-- A sequence without NXT, ACC and RXP completes, and CYC stays (R32). -/
theorem execAll_keeps_cyc {is : List Instr} (his : ∀ i ∈ is, i.WellFormed ∧ i ≠ .nxt ∧ i ≠ .acc ∧ i ≠ .rxp) (s : State) :
    ∃ t, execAll is s = .next t ∧ t.cyc = s.cyc := by
  induction is generalizing s with
  | nil => exact ⟨s, rfl, rfl⟩
  | cons i is ih =>
    obtain ⟨⟨hi, hnxt, hacc, hrxp⟩, hrest⟩ := List.forall_mem_cons.mp his
    obtain ⟨u, hu⟩ := exec_total i s
    obtain ⟨t, ht, hcyc⟩ := ih hrest u
    exact ⟨t, (execAll_cons hu is).trans ht, hcyc.trans ((exec_writesOnlyItsOwn hi.ne_wr_cmd hu).cyc hnxt hacc hrxp)⟩

/-- Settles O24: after the first NXT, CYC is its SEQ_OUT, and CYC stays until the second NXT adds 1 to it. -/
theorem twoNxtAreOneApart : Obligations.TwoNxtAreOneApart := by
  intro between s t u hbetween hfirst hsecond
  obtain ⟨m, hm, hcyc⟩ := execAll_keeps_cyc hbetween t
  rw [execAll_append _ _ _ _ hm] at hsecond
  cases hfirst
  cases hsecond
  exact congrArg (· + 1#8) hcyc

/-- Writing a candidate to ACC_IN and ACC: ACC_NEW says whether it differs from CYC, and CYC holds it afterwards (R122). -/
theorem execAll_wr_acc (c : Byte) (s : State) :
    ∃ t, execAll [.wr 0x1D#8 c, .acc] s = .next t ∧ t.status.getLsbD 2 = decide (c ≠ s.cyc) ∧ t.cyc = c := by
  have hwr : exec (.wr 0x1D#8 c) s = .next { s with accIn := c } := exec_wr_reg .accIn c s rfl
  refine ⟨_, execAll_cons hwr [.acc], ?_, accCommand_cyc _⟩
  rw [decide_not]
  exact flag_accCommand { s with accIn := c } .accNew

/-- Settles O26: each ACC compares its candidate with the one before it. -/
theorem accRepeatIsADuplicate : Obligations.AccRepeatIsADuplicate := by
  intro s c1 c2 hne
  obtain ⟨t, ht, hnew1, hcyc1⟩ := execAll_wr_acc c1 s
  obtain ⟨u, hu, hnew2, hcyc2⟩ := execAll_wr_acc c1 t
  obtain ⟨v, hv, hnew3, hcyc3⟩ := execAll_wr_acc c2 u
  rw [hcyc1, decide_eq_false (not_not_intro rfl)] at hnew2
  rw [hcyc2, decide_eq_true hne.symm] at hnew3
  exact ⟨t, u, v, ht, hu, hv, hnew1, hnew2, hnew3, hcyc3⟩

/-- Settles O27: each ACC compares its candidate with the one before it alone, so the third is new again. -/
theorem accHasNoWindow : Obligations.AccHasNoWindow := by
  intro s c1 c2 hne hnew
  obtain ⟨t, ht, hnew1, hcyc1⟩ := execAll_wr_acc c1 s
  obtain ⟨u, hu, hnew2, hcyc2⟩ := execAll_wr_acc c2 t
  obtain ⟨v, hv, hnew3, hcyc3⟩ := execAll_wr_acc c1 u
  rw [decide_eq_true hnew] at hnew1
  rw [hcyc1, decide_eq_true hne.symm] at hnew2
  rw [hcyc2, decide_eq_true hne] at hnew3
  exact ⟨t, u, v, ht, hu, hv, hnew1, hnew2, hnew3, hcyc3⟩

/-- Settles O23: NXT adds 1 to CYC as an octet, and clearing ILL_CMD is the mask 0x7F. -/
theorem nxtAdvancesTheCycle : Obligations.NxtAdvancesTheCycle :=
  ⟨decode_cmdWord 0x03#8, fun s => ⟨s.cyc + 1#8, BitVec.toNat_add s.cyc 1#8, exec_nxt s⟩⟩

/-- ACC as one update of the state: CYC takes the candidate, new or not, and ACC_NEW the comparison (R122, R123). -/
theorem accCommand_eq (s : State) : accCommand s = { s with
    cyc := s.accIn
    status := statusSet (statusSet s.status .illCmd false) .accNew (decide (s.accIn ≠ s.cyc)) } := by
  rw [accCommand, State.dedup, acceptIfNew_eq]
  rfl

/-- Settles O25: the update of ACC in the two outcomes of its comparison, the two written bits as masks. -/
theorem accAcceptsADifferentCycle : Obligations.AccAcceptsADifferentCycle := by
  refine ⟨decode_cmdWord 0x04#8, fun s => ?_⟩
  rw [exec_acc, accCommand_eq]
  split
  next heq =>
    have hmask : statusSet (statusSet s.status .illCmd false) .accNew false = s.status &&& 0x7B#8 := by
      rw [statusSet_false, statusSet_false, BitVec.and_assoc]
      rfl
    rw [decide_eq_false (not_not_intro heq), hmask, heq]
  next hne =>
    rw [decide_eq_true hne]
    rfl

end Sys2Proof.Machine
end

section
/-! The Report Decoder and the receive validator (spec/43_report_extractor.md R130–R139): the states RPT and RXP make their checks
in, their paths, the report's text against the frame, the id no check reads, and the repeated commands. -/

namespace Sys2Proof.Machine

/-- The count and the clamp flag from the octets wanted (R132). -/
theorem textCount_eq (conv : LenConv) (L : Byte) :
    textCount conv L = (min (wantedText conv L) 5, decide (5 < wantedText conv L)) := by
  rw [textCount, rawTextCount_eq]

/-- Settles O29: under both conventions the count is the octets wanted, cut to five. -/
theorem textCountByConvention : Obligations.TextCountByConvention :=
  ⟨textCount_eq .exact, fun L _ => textCount_eq .inclusive L, rfl, rfl⟩

/-- Writing to a bit the value it has changes nothing. -/
theorem statusSet_of_statusGet_eq {st : Byte} {f : Flag} {b : Bool} (h : statusGet st f = b) : statusSet st f b = st := by
  refine status_ext fun g => ?_
  rw [statusGet_statusSet]
  split
  next hg => rw [hg, h]
  next => rfl

/-- The state RPT makes its checks in: no report, and of STATUS only ENC_ERR, DEC_VALID and ACC_NEW left (R104, R135). -/
theorem State.clearReport_beginCommand (s : State) :
    s.beginCommand.clearReport = { s with rpt := ReportRegs.zero, status := s.status &&& 0x07#8 } := by
  have hstatus : s.beginCommand.clearReport.status = s.status &&& 0x07#8 := by
    simp only [State.clearReport_status, State.beginCommand_status, statusSet_false, BitVec.and_assoc]
    rfl
  rw [← hstatus]
  rfl

/-- The state RXP makes its checks in: as RPT's, with the frame decoded and DEC_VALID set (R112, R137). -/
theorem State.received_eq (s : State) : s.received =
    { s with rx := decodeFrame s.fb, rpt := ReportRegs.zero, status := s.status &&& 0x05#8 ||| 0x02#8 } := by
  have hmask : ∀ st : Byte, statusSet (st &&& 0x7F#8) .decValid true &&& 0x87#8 = st &&& 0x05#8 ||| 0x02#8 := by decide
  have hstatus : s.received.status = s.status &&& 0x05#8 ||| 0x02#8 := by
    rw [← hmask]
    simp only [State.clearReport_status, State.loadRx_status, State.beginCommand_status, statusSet_false, BitVec.and_assoc]
    rfl
  rw [← hstatus]
  rfl

/-- A duplicate leaves CYC to RXP and clears ACC_NEW (R123, R137). -/
theorem State.dedup_received_of_eq {s : State} (h : s.fb[0] = s.cyc) :
    s.received.dedup s.fb[0] = { s.received with status := s.status &&& 0x01#8 ||| 0x02#8 } := by
  have hmask : ∀ st : Byte, statusSet (st &&& 0x05#8 ||| 0x02#8) .accNew false = st &&& 0x01#8 ||| 0x02#8 := by decide
  rw [State.dedup, acceptIfNew_eq, ← hmask, State.received_eq, h]
  simp [State.setFlag]

/-- A new frame moves CYC for RXP and sets ACC_NEW (R123, R137). -/
theorem State.dedup_received_of_ne {s : State} (h : s.fb[0] ≠ s.cyc) :
    s.received.dedup s.fb[0] = { s.received with cyc := s.fb[0], status := s.status &&& 0x01#8 ||| 0x06#8 } := by
  have hmask : ∀ st : Byte, statusSet (st &&& 0x05#8 ||| 0x02#8) .accNew true = st &&& 0x01#8 ||| 0x06#8 := by decide
  rw [State.dedup, acceptIfNew_eq, ← hmask, State.received_eq]
  simp [State.setFlag, h]

/-- STATUS after a report is built where LEN_CLAMP was 0 (R134). -/
theorem State.buildReport_status_of_lenClamp {s : State} (h : s.flag .lenClamp = false) :
    s.buildReport.status = s.status ||| 0x08#8 |||
      (if (textCount s.params.lenConv s.rx.payload[3]).2 = true then 0x20#8 else 0x00#8) := by
  rw [State.buildReport_status]
  cases (textCount s.params.lenConv s.rx.payload[3]).2 with
  | false => exact (congrArg (· ||| 0x08#8) (statusSet_of_statusGet_eq h)).trans BitVec.or_zero.symm
  | true =>
    change s.status ||| 0x20#8 ||| 0x08#8 = s.status ||| 0x08#8 ||| 0x20#8
    ac_rfl

/-- A report built on cleared registers, as one update: the report registers and STATUS alone (R134). -/
theorem State.buildReport_of_cleared {s : State} (hzero : s.rpt = ReportRegs.zero) (hclamp : s.flag .lenClamp = false) :
    ∃ r clamp, IsReport s.params.lenConv s.rx s.rssiHi s.rssiLo r clamp ∧ s.buildReport = { s with
      rpt := r, status := s.status ||| 0x08#8 ||| (if clamp = true then 0x20#8 else 0x00#8) } := by
  refine ⟨_, _, s.buildReport_isReport hzero, ?_⟩
  rw [← State.buildReport_status_of_lenClamp hclamp]
  rfl

/-- The path RPT takes, by its two checks (R136). -/
theorem rptCommand_eq_ite (s : State) : rptCommand s =
    if s.flag .decValid = false then s.beginCommand.clearReport.raise .noData
    else if s.isResponse = false then s.beginCommand.clearReport.raise .typeErr
    else s.beginCommand.clearReport.buildReport := by
  rcases rptCommand_cases s with ⟨hd, h⟩ | ⟨hd, hr, h⟩ | ⟨hd, hr, h⟩
  · simp [h, hd]
  · simp [h, hd, hr]
  · simp [h, hd, hr]

/-- The path RXP takes, by its order and its two checks (R137). -/
theorem rxpCommand_eq_ite (s : State) : rxpCommand s =
    if s.params.rxpOrder = .typeFirst ∧ s.fb[1] ≠ s.params.mtResponseReport then s.received.badType
    else if s.fb[0] = s.cyc then (s.received.dedup s.fb[0]).setRxpRes 0x02#8
    else if s.fb[1] = s.params.mtResponseReport then (s.received.dedup s.fb[0]).buildReport.setRxpRes 0x01#8
    else (s.received.dedup s.fb[0]).badType := by
  rcases rxpCommand_cases s with ⟨ho, hm, h⟩ | ⟨ho | hm, hc, h⟩ | ⟨ho, hc, hm, h⟩ | ⟨hc, hm, h⟩
  · simp [h, ho, hm]
  · simp [h, ho, hc]
  · simp [h, hm, hc]
  · simp [h, ho, hc, hm]
  · simp [h, hc, hm]

/-- RXP on a duplicate, as one update of the state of its checks (R137). -/
theorem rxpCommand_of_duplicate {s : State}
    (hrun : s.params.rxpOrder = .dedupFirst ∨ s.fb[1] = s.params.mtResponseReport) (hc : s.fb[0] = s.cyc) :
    rxpCommand s = { s.received with status := s.status &&& 0x01#8 ||| 0x02#8, rxpRes := 0x02#8 } := by
  have hchecked : ¬ (s.params.rxpOrder = .typeFirst ∧ s.fb[1] ≠ s.params.mtResponseReport) := by
    rcases hrun with ho | hm
    · simp [ho]
    · simp [hm]
  rw [rxpCommand_eq_ite, if_neg hchecked, if_pos hc, State.dedup_received_of_eq hc]
  rfl

/-- Settles O31: the three paths of RPT, from the state of its checks. -/
theorem rptExtractsTheReport : Obligations.RptExtractsTheReport := by
  refine ⟨decode_cmdWord 0x05#8, fun s => ?_⟩
  rw [exec_rpt, rptCommand_eq_ite, State.isResponse_eq]
  refine ⟨fun (hdec : s.flag .decValid = false) => ?_, fun (hdec : s.flag .decValid = true) htype => ?_,
    fun (hdec : s.flag .decValid = true) htype => ?_⟩
  · rw [if_pos hdec, s.clearReport_beginCommand]
    exact ⟨_, (noReport_iff _).mpr rfl, rfl⟩
  · rw [if_neg (ne_false_of_eq_true hdec), if_pos (decide_eq_false htype), s.clearReport_beginCommand]
    exact ⟨_, (noReport_iff _).mpr rfl, rfl⟩
  · obtain ⟨r, clamp, hreport, hbuild⟩ := State.buildReport_of_cleared (s := s.beginCommand.clearReport) rfl (by simp)
    rw [if_neg (ne_false_of_eq_true hdec), if_neg (ne_false_of_eq_true (decide_eq_true htype)), hbuild,
      s.clearReport_beginCommand]
    exact ⟨r, clamp, hreport, rfl⟩

/-- Settles O32: the four paths of RXP, from the state of its checks. -/
theorem rxpValidatesAndExtracts : Obligations.RxpValidatesAndExtracts := by
  refine ⟨decode_cmdWord 0x06#8, fun s => ⟨decodeFrame s.fb, frameAt_decodeFrame s.fb, ?_⟩⟩
  rw [exec_rxp, rxpCommand_eq_ite, decodeFrame_messageType, decodeFrame_cycle]
  refine ⟨fun ho hm => ?_, fun hrun hc => ?_, fun ho hc hm => ?_, fun hc hm => ?_⟩
  · have hbits : s.status &&& 0x05#8 ||| 0x02#8 ||| 0x10#8 = s.status &&& 0x05#8 ||| 0x12#8 := BitVec.or_assoc ..
    rw [if_pos ⟨ho, hm⟩, State.received_eq, ← hbits]
    exact ⟨_, (noReport_iff _).mpr rfl, rfl⟩
  · rw [← rxpCommand_eq_ite, rxpCommand_of_duplicate hrun hc]
    exact ⟨_, (noReport_iff _).mpr rfl, rfl⟩
  · have hbits : s.status &&& 0x01#8 ||| 0x06#8 ||| 0x10#8 = s.status &&& 0x01#8 ||| 0x16#8 := BitVec.or_assoc ..
    rw [if_neg (by simp [ho]), if_neg hc, if_neg hm, State.dedup_received_of_ne hc, ← hbits]
    exact ⟨_, (noReport_iff _).mpr rfl, rfl⟩
  · have hbits : s.status &&& 0x01#8 ||| 0x06#8 ||| 0x08#8 = s.status &&& 0x01#8 ||| 0x0E#8 := BitVec.or_assoc ..
    obtain ⟨r, clamp, hreport, hbuild⟩ := State.buildReport_of_cleared (s := s.received.dedup s.fb[0]) rfl (by simp)
    rw [if_neg (by simp [hm]), if_neg hc, if_pos hm, hbuild, State.dedup_received_of_ne hc, ← hbits]
    exact ⟨r, clamp, hreport, rfl⟩

/-- The path of an RXP that ended as REPORT: a new frame of a response (R137). -/
theorem rxpCommand_of_report {s : State} (h : (rxpCommand s).rxpRes = 0x01#8) :
    s.fb[0] ≠ s.cyc ∧ s.fb[1] = s.params.mtResponseReport ∧
      rxpCommand s = (s.received.dedup s.fb[0]).buildReport.setRxpRes 0x01#8 := by
  rcases rxpCommand_cases s with ⟨-, -, hpath⟩ | ⟨-, -, hpath⟩ | ⟨-, -, -, hpath⟩ | hreport
  · simp [hpath] at h
  · simp [hpath] at h
  · simp [hpath] at h
  · exact hreport

/-- Where the declared length is not cut, the text octets of a frame's report are the frame bytes from 7 on (R139). -/
theorem IsReport.sensorText {conv : LenConv} {W : Vector Byte 12} {hi lo : Byte} {r : ReportRegs} {clamp : Bool}
    (h : IsReport conv (decodeFrame W) hi lo r clamp) (huncut : wantedText conv W[6] ≤ 5) :
    r.text.toList.take r.len.toNat = (W.toList.drop 7).take (wantedText conv W[6]) := by
  obtain ⟨-, -, -, hlen, htext, -, -⟩ := h
  rw [decodeFrame_payload _ 3 (by decide)] at hlen htext
  rw [hlen, min_eq_left huncut]
  refine List.ext_getElem (by simp) fun k hk _ => ?_
  have hwanted : k < wantedText conv W[6] := (List.length_take_le _ _).trans_lt' hk
  have hoctet : r.text[k] = W[7 + k] := by
    have hpayload := htext ⟨k, hwanted.trans_le huncut⟩
    rw [if_pos hwanted, decodeFrame_payload] at hpayload
    simpa [← Nat.add_assoc] using hpayload
  simp [hoctet]

/-- Settles O33: the report is the frame's, and its text is not cut. -/
theorem sensorTextIsTheDesignatedBytes : Obligations.SensorTextIsTheDesignatedBytes := by
  rintro s t h hres
  cases h
  obtain ⟨hc, hm, hpath⟩ := rxpCommand_of_report hres
  have hvalid : (rxpCommand s).flag .rptValid = true := by simp [flag_rxpCommand, hc, hm]
  have hreport := (reportMatches_rxpCommand s).report hvalid
  have hparams : (rxpCommand s).params = s.params := by rw [hpath]; rfl
  rw [rxpCommand_rx, hparams] at hreport
  refine ⟨_, if_pos hvalid, hreport.1, fun hconv hle => ?_, fun hconv _ hle => ?_⟩
  · rw [hconv] at hreport
    exact hreport.sensorText hle
  · rw [hconv] at hreport
    exact hreport.sensorText (Nat.sub_le_sub_right hle 1)

/-- RPT is a function of the state of its checks (R136). -/
theorem rptCommand_congr {s t : State} (h : t.beginCommand.clearReport = s.beginCommand.clearReport) :
    rptCommand t = rptCommand s := by
  simp only [rptCommand, h]

/-- Settles O35: the second RPT makes its checks in the same state as the first. -/
theorem rptTwiceIsRptOnce : Obligations.RptTwiceIsRptOnce := by
  rintro s t h
  cases h
  have hkept : (rptCommand s).status &&& 0x07#8 = s.status &&& 0x07#8 :=
    exec_status_and_eq (i := .rpt) rfl rfl fun g => by cases g <;> rfl
  obtain ⟨r, st, hframe⟩ := rptCommand_frame s
  have hstart : (rptCommand s).beginCommand.clearReport = s.beginCommand.clearReport := by
    rw [State.clearReport_beginCommand, State.clearReport_beginCommand, hkept, hframe]
  rw [exec_rpt, rptCommand_congr hstart]

/-- Settles O36: the first RXP leaves the frame's cycle id in CYC, so the second finds a duplicate of a response. -/
theorem rxpRepeatIsADuplicate : Obligations.RxpRepeatIsADuplicate := by
  rintro s t h hres
  cases h
  obtain ⟨-, hm, hpath⟩ := rxpCommand_of_report hres
  have htype : (rxpCommand s).fb[1] = (rxpCommand s).params.mtResponseReport := by simp [hpath, hm]
  have hcyc : (rxpCommand s).fb[0] = (rxpCommand s).cyc := by simp [hpath, acceptIfNew_eq]
  have hrx : decodeFrame (rxpCommand s).fb = (rxpCommand s).rx := by simp [hpath]
  rw [exec_rxp, rxpCommand_of_duplicate (.inr htype) hcyc]
  exact ⟨_, rfl, rfl, rfl, hrx, (noReport_iff _).mpr rfl, by simp, by simp⟩

/-- The frame at the octets with another id is the frame with another id (R113). -/
theorem decodeFrame_set_id (W : Vector Byte 12) (x : Byte) :
    decodeFrame (W.set 2 x) = { decodeFrame W with peripheralId := x } := by
  have hpayload (j : Fin 9) : (W.set 2 x)[3 + j.val] = W[3 + j.val] := Vector.getElem_set_ne _ _ (by omega)
  simp [decodeFrame, hpayload]

/-- The state with the octets `W` in FB. -/
def State.setFb (W : Vector Byte 12) (s : State) : State := { s with fb := W }

/-- The state with the id `x` in RX. -/
def State.setRxId (x : Byte) (s : State) : State := { s with rx := { s.rx with peripheralId := x } }

/-- The state with the id `x` in RX and, where there is a report, in the report. -/
def State.setReportedId (x : Byte) (s : State) : State :=
  { s.setRxId x with rpt := if s.flag .rptValid = true then { s.rpt with id := x } else s.rpt }

/-- Without a report the id stands in RX alone. -/
theorem State.setReportedId_of_no_report {s : State} (h : s.flag .rptValid = false) (x : Byte) :
    s.setReportedId x = s.setRxId x := by
  rw [State.setReportedId, h]
  rfl

/-- The report takes the id in RX as it is (R134). -/
theorem State.buildReport_setRxId (s : State) (x : Byte) :
    (s.setRxId x).buildReport = s.buildReport.setReportedId x := by
  have hvalid : s.buildReport.flag .rptValid = true := by simp
  rw [State.setReportedId, if_pos hvalid]
  rfl

/-- RPT on another id in RX (R138). -/
theorem rptCommand_setRxId (s : State) (x : Byte) : rptCommand (s.setRxId x) = (rptCommand s).setReportedId x := by
  rw [rptCommand_eq_ite, rptCommand_eq_ite]
  change (if s.flag .decValid = false then (s.beginCommand.clearReport.raise .noData).setRxId x
    else if s.isResponse = false then (s.beginCommand.clearReport.raise .typeErr).setRxId x
    else (s.beginCommand.clearReport.setRxId x).buildReport) = _
  split
  · rw [State.setReportedId_of_no_report (by simp)]
  split
  · rw [State.setReportedId_of_no_report (by simp)]
  · rw [State.buildReport_setRxId]

/-- Another id in FB is another id in RX once the frame is decoded (R113). -/
theorem State.received_set_id (s : State) (x : Byte) :
    (s.setFb (s.fb.set 2 x)).received = (s.received.setRxId x).setFb (s.fb.set 2 x) := by
  rw [State.received_eq, State.received_eq, State.setFb, decodeFrame_set_id]
  rfl

/-- RXP on another id in FB (R138). -/
theorem rxpCommand_set_id (s : State) (x : Byte) :
    rxpCommand (s.setFb (s.fb.set 2 x)) = ((rxpCommand s).setReportedId x).setFb (s.fb.set 2 x) := by
  have hcycle : (s.setFb (s.fb.set 2 x)).fb[0] = s.fb[0] := by simp [State.setFb]
  have htype : (s.setFb (s.fb.set 2 x)).fb[1] = s.fb[1] := by simp [State.setFb]
  rw [rxpCommand_eq_ite, State.received_set_id, hcycle, htype, rxpCommand_eq_ite s]
  change (if s.params.rxpOrder = .typeFirst ∧ s.fb[1] ≠ s.params.mtResponseReport
      then (s.received.badType.setRxId x).setFb (s.fb.set 2 x)
    else if s.fb[0] = s.cyc then (((s.received.dedup s.fb[0]).setRxpRes 0x02#8).setRxId x).setFb (s.fb.set 2 x)
    else if s.fb[1] = s.params.mtResponseReport
      then (((s.received.dedup s.fb[0]).setRxId x).buildReport.setRxpRes 0x01#8).setFb (s.fb.set 2 x)
    else ((s.received.dedup s.fb[0]).badType.setRxId x).setFb (s.fb.set 2 x)) = _
  split
  · rw [State.setReportedId_of_no_report (by simp)]
  split
  · rw [State.setReportedId_of_no_report (by simp)]
  split
  · rw [State.buildReport_setRxId]
    rfl
  · rw [State.setReportedId_of_no_report (by simp)]

/-- Settles O34: no check reads the id, which goes through to RX and to a report that is built. -/
theorem peripheralIdIsNeverCompared : Obligations.PeripheralIdIsNeverCompared := by
  refine ⟨fun s t x h => ?_, fun s t x h => ?_⟩
  · cases h
    exact congrArg Host.Outcome.next (rxpCommand_set_id s x)
  · cases h
    obtain ⟨r, st, hframe⟩ := rptCommand_frame s
    have hrx : (rptCommand s).rx = s.rx := by rw [hframe]
    refine congrArg Host.Outcome.next ((rptCommand_setRxId s x).trans ?_)
    rw [State.setReportedId, State.setRxId, hrx]
    rfl

end Sys2Proof.Machine
end

section
/-! No condition stops the block (spec/60_exceptions.md R159): every step leads to a next state. -/

namespace Sys2Proof.Machine

/-- Every step leads to a next state (R159). -/
theorem step_total (s : State) : ∃ t, step s = .next t := by
  cases hport : s.port with
  | nil => exact ⟨_, step_nil hport⟩
  | cons e rest =>
    cases e with
    | transaction w =>
      rw [step_transaction hport]
      exact exec_total _ _
    | reset => exact ⟨_, step_reset hport⟩

/-- Settles O8: every instruction has a next state, and a step is idle, an instruction or the reset. -/
theorem everyStepCompletes : Obligations.EveryStepCompletes :=
  ⟨exec_total, step_total⟩

end Sys2Proof.Machine
end

section
/-! The host's own receive path (spec/60_exceptions.md R162) against RXP under DEDUP_FIRST: DEC, the check by ACC, and RPT. -/

namespace Sys2Proof.Machine

/-- Under DEDUP_FIRST the duplicate check runs on every frame, and CYC holds the frame's cycle id afterwards (R137). -/
theorem rxpCommand_cyc_of_dedupFirst {s : State} (ho : s.params.rxpOrder = .dedupFirst) : (rxpCommand s).cyc = s.fb[0] := by
  rcases rxpCommand_cases s with ⟨ht, -, -⟩ | ⟨-, -, h⟩ | ⟨-, -, -, h⟩ | ⟨-, -, h⟩
  · rw [ho] at ht
    cases ht
  all_goals simp [h, acceptIfNew_eq]

/-- The block after the host's own path as far as ACC: DEC, RD RX_CYC, WR ACC_IN with the octet read, ACC (R162). -/
def State.manuallyChecked (s : State) : State :=
  accCommand { decCommand s with readData := some s.fb[0], accIn := s.fb[0] }

/-- The octet the host reads after DEC is the frame's cycle id. -/
theorem execAll_dec_rd_rxCyc (s : State) :
    execAll [.dec, .rd 0x20#8] s = .next { decCommand s with readData := some s.fb[0] } :=
  execAll_cons (exec_dec s) [.rd Reg.rxCyc.addr]

/-- The host's own path ends its duplicate check in `manuallyChecked`. -/
theorem execAll_wr_acc_manual (s : State) :
    execAll [.wr 0x1D#8 s.fb[0], .acc] { decCommand s with readData := some s.fb[0] } = .next s.manuallyChecked :=
  execAll_cons (exec_wr_reg .accIn s.fb[0] _ rfl) [.acc]

/-- The flags after the duplicate check of the host's own path (R112, R122). -/
theorem State.flag_manuallyChecked (s : State) (g : Flag) : s.manuallyChecked.flag g =
    match g with
    | .accNew => decide (s.fb[0] ≠ s.cyc)
    | .decValid => true
    | .illCmd => false
    | .encErr | .rptValid | .typeErr | .lenClamp | .noData => s.flag g := by
  have hdec (h : Flag) : State.flag { decCommand s with readData := some s.fb[0], accIn := s.fb[0] } h =
      (decCommand s).flag h := rfl
  rw [State.manuallyChecked, flag_accCommand, hdec, flag_decCommand]
  cases g with
  | accNew => exact decide_not.symm
  | _ => rfl

/-- Under DEDUP_FIRST, RPT after the duplicate check of the host's own path leaves RXP's report registers where the frame is
new: the report of one frame and one RSSI, or none (R136, R137). -/
theorem rptCommand_manuallyChecked_rpt {s : State} (hnew : s.fb[0] ≠ s.cyc) (ho : s.params.rxpOrder = .dedupFirst) :
    (rptCommand s.manuallyChecked).rpt = (rxpCommand s).rpt := by
  have hdec : s.manuallyChecked.flag .decValid = true := s.flag_manuallyChecked .decValid
  have hresponse : s.manuallyChecked.isResponse = decide (s.fb[1] = s.params.mtResponseReport) :=
    s.manuallyChecked.isResponse_eq
  have hchecked : ¬ (s.params.rxpOrder = .typeFirst ∧ s.fb[1] ≠ s.params.mtResponseReport) := by simp [ho]
  rw [rptCommand_eq_ite, if_neg (ne_false_of_eq_true hdec), hresponse, rxpCommand_eq_ite, if_neg hchecked, if_neg hnew]
  by_cases hm : s.fb[1] = s.params.mtResponseReport
  · rw [if_neg (ne_false_of_eq_true (decide_eq_true hm)), if_pos hm]
    rfl
  · rw [if_pos (decide_eq_false hm), if_neg hm]
    rfl

/-- RPT after the duplicate check of the host's own path leaves RXP's RPT_VALID and TYPE_ERR where the frame is new (R27, R28). -/
theorem rptCommand_manuallyChecked_flag {s : State} (hnew : s.fb[0] ≠ s.cyc) {g : Flag} (hg : g = .rptValid ∨ g = .typeErr) :
    (rptCommand s.manuallyChecked).flag g = (rxpCommand s).flag g := by
  have hdec : s.manuallyChecked.flag .decValid = true := s.flag_manuallyChecked .decValid
  have htype : s.manuallyChecked.rx.messageType = s.fb[1] := rfl
  have hparams : s.manuallyChecked.params = s.params := rfl
  rcases hg with rfl | rfl <;> simp [flag_rptCommand, flag_rxpCommand, hdec, htype, hparams, hnew]

/-- Settles O38: CYC, RX and ACC_NEW by the laws of ACC and RXP, a duplicate by RXP's own path, and a new frame by RPT's laws. -/
theorem manualPathAgreesWithRxp : Obligations.ManualPathAgreesWithRxp := by
  intro s ho
  have hcyc : s.manuallyChecked.cyc = (rxpCommand s).cyc := (accCommand_cyc _).trans (rxpCommand_cyc_of_dedupFirst ho).symm
  have hrx : s.manuallyChecked.rx = (rxpCommand s).rx := (rxpCommand_rx s).symm
  have hnew : s.manuallyChecked.flag .accNew = decide (s.fb[0] ≠ s.cyc) := s.flag_manuallyChecked .accNew
  have hrxpNew : (rxpCommand s).flag .accNew = decide (s.fb[0] ≠ s.cyc) := (flag_rxpCommand s .accNew).trans (if_pos (.inl ho))
  refine ⟨_, _, s.fb[0], exec_rxp s, execAll_dec_rd_rxCyc s, rfl, s.manuallyChecked, execAll_wr_acc_manual s,
    hcyc, hrx, hnew.trans hrxpNew.symm, rfl, rfl, fun hdup => ?_, fun haccepted => ?_⟩
  · have hc : s.fb[0] = s.cyc := not_not.mp (of_decide_eq_false (hnew.symm.trans hdup))
    refine ⟨rfl, s.flag_manuallyChecked .rptValid, (noReport_iff _).mpr ?_⟩
    rw [rxpCommand_of_duplicate (.inl ho) hc]
    rfl
  · have hne : s.fb[0] ≠ s.cyc := of_decide_eq_true (hnew.symm.trans haccepted)
    obtain ⟨r, st, hframe⟩ := rptCommand_frame s.manuallyChecked
    refine ⟨_, exec_rpt _, rptCommand_manuallyChecked_rpt hne ho, rptCommand_manuallyChecked_flag hne (.inl rfl),
      rptCommand_manuallyChecked_flag hne (.inr rfl), ?_⟩
    rw [hframe]
    exact ⟨hcyc, hrx, rfl, rfl⟩

end Sys2Proof.Machine
end

section
/-! The host protocol (spec/60_exceptions.md R160–R166): what the controller's two sequences of transactions come to, its step in
each state, and where its steps lead. -/

namespace Sys2Proof.Machine

/-- The block after the host's request: NXT, then ENC of the new cycle id, MT_REQUEST_REPORT, the target and the payload (R161). -/
def State.requested (s : State) (target plen : Byte) (payload : Vector Byte 9) : State :=
  encCommand { nxtCommand s with
    readData := some (s.cyc + 1#8)
    tx := { cycle := s.cyc + 1#8, messageType := s.params.mtRequestReport, peripheralId := target, payload }
    txPlen := plen }

/-- Steps 1 to 3 of R161 complete, and the octets read are the frame buffer as ENC left it. -/
theorem buildRequest_eq (target plen : Byte) (payload : Vector Byte 9) (s : State) :
    ∃ d, buildRequest target plen payload s =
      .next ({ s.requested target plen payload with readData := d }, (s.requested target plen payload).fb.toList) := by
  obtain ⟨d, hread⟩ := readAll_fbAddrs (s.requested target plen payload)
  refine ⟨d, ?_⟩
  have hnxt : execAll [.nxt, .rd Reg.seqOut.addr] s = .next { nxtCommand s with readData := some (s.cyc + 1#8) } := rfl
  rw [buildRequest, hnxt]
  simp only [execAll_requestInstrs, Option.getD_some]
  exact hread

/-- The controller's step on a chosen payload (R161). -/
theorem controllerStep_request {c : Controller} (hc : c.status = .requestingReport) (plen : Byte) (payload : Vector Byte 9) :
    ∃ d, controllerStep (.request plen payload) c = .next { c with
      status := .sensingChannel (c.block.requested c.target plen payload).fb.toList
      block := { c.block.requested c.target plen payload with readData := d } } := by
  obtain ⟨d, hbuild⟩ := buildRequest_eq c.target plen payload c.block
  refine ⟨d, ?_⟩
  simp only [controllerStep, hc, hbuild]

/-- Settles O54: ENC of the request's fields, within the payload capacity. -/
theorem hostBuildsTheRequest : Obligations.HostBuildsTheRequest := by
  intro c plen payload hc hplen
  obtain ⟨d, hstep⟩ := controllerStep_request hc plen payload
  refine ⟨_, hstep, rfl, ?_⟩
  rw [State.requested, encCommand_of_le]
  · exact ⟨rfl, encodeFrame_cycle .., encodeFrame_messageType .., encodeFrame_peripheralId ..,
      fun j => encodeFrame_payload _ _ _ _ _ j j.isLt, rfl, rfl⟩
  · exact hplen.not_gt

/-- The block after the host's receive: RXP on the packet and its RSSI (R162). -/
def State.receivedPacket (s : State) (packet : Vector Byte 12) (rssi : BitVec 16) : State :=
  rxpCommand { s with fb := packet, rssiLo := rssi.extractLsb' 0 8, rssiHi := rssi.extractLsb' 8 8 }

/-- RXP_RES says REPORT exactly where RPT_VALID is 1 (R40). -/
theorem rxpCommand_rxpRes_eq_report_iff (s : State) :
    (rxpCommand s).rxpRes = 0x01#8 ↔ (rxpCommand s).flag .rptValid = true := by
  obtain ⟨-, hreport, -⟩ := (onlyRxpWritesItsOutcome.2 .rxp s _ rfl (exec_rxp s)).2 rfl
  exact hreport

/-- The host's receive completes, and what it makes of its reads is the report the block holds, if any (R162). -/
theorem takePacket_eq (packet : Vector Byte 12) (rssi : BitVec 16) (s : State) :
    ∃ d, takePacket packet rssi s =
      .next ({ s.receivedPacket packet rssi with readData := d }, (s.receivedPacket packet rssi).peripheralReport) := by
  have hrxp : execAll (receiveInstrs packet rssi ++ [.rd Reg.rxpRes.addr]) s = .next
      { s.receivedPacket packet rssi with readData := some (s.receivedPacket packet rssi).rxpRes } :=
    execAll_receiveInstrs packet rssi [.rd Reg.rxpRes.addr] s
  have hres : (s.receivedPacket packet rssi).rxpRes = 0x01#8 ↔ (s.receivedPacket packet rssi).flag .rptValid = true :=
    rxpCommand_rxpRes_eq_report_iff _
  rw [takePacket, hrxp]
  generalize s.receivedPacket packet rssi = t at hres
  simp only [Option.some.injEq, hres, State.peripheralReport]
  obtain ⟨d, hread⟩ := readAll_reportAddrs { t with readData := some t.rxpRes }
  by_cases hvalid : t.flag .rptValid = true
  · refine ⟨d, ?_⟩
    rw [if_pos hvalid, if_pos hvalid, hread]
    rfl
  · exact ⟨some t.rxpRes, by rw [if_neg hvalid, if_neg hvalid]⟩

/-- The listening controller's step on a packet: a report goes to the sink and ends the listening (R162). -/
theorem controllerStep_packet {c : Controller} (hc : c.status = .listeningForResponse) (packet : Vector Byte 12)
    (rssi : BitVec 16) :
    ∃ d, controllerStep (.received (.success packet rssi)) c = .next { c with
      status := if (c.block.receivedPacket packet rssi).flag .rptValid = true then .requestingReport else .listeningForResponse
      block := { c.block.receivedPacket packet rssi with readData := d }
      reports := c.reports ++ (c.block.receivedPacket packet rssi).peripheralReport.toList } := by
  obtain ⟨d, htake⟩ := takePacket_eq packet rssi c.block
  refine ⟨d, ?_⟩
  unfold controllerStep
  simp only [hc, htake]
  generalize c.block.receivedPacket packet rssi = t
  by_cases hvalid : t.flag .rptValid = true
  · simp only [State.peripheralReport, if_pos hvalid, Option.toList_some]
  · simp only [State.peripheralReport, if_neg hvalid, Option.toList_none, List.append_nil]

/-- The text octets of a frame's report are the frame bytes from 7 on, as many as are wanted and at most five (R132, R134). -/
theorem IsReport.sensorText_cut {conv : LenConv} {W : Vector Byte 12} {hi lo : Byte} {r : ReportRegs} {clamp : Bool}
    (h : IsReport conv (decodeFrame W) hi lo r clamp) :
    r.text.toList.take r.len.toNat = (W.toList.drop 7).take (min (wantedText conv W[6]) 5) := by
  obtain ⟨-, -, -, hlen, htext, -, -⟩ := h
  rw [decodeFrame_payload _ 3 (by decide)] at hlen htext
  rw [hlen]
  refine List.ext_getElem (by simp) fun k hk _ => ?_
  obtain ⟨hwanted, hcap⟩ := lt_min_iff.mp ((List.length_take_le _ _).trans_lt' hk)
  have hoctet : r.text[k] = W[7 + k] := by
    have hpayload := htext ⟨k, hcap⟩
    rw [if_pos hwanted, decodeFrame_payload] at hpayload
    simpa [← Nat.add_assoc] using hpayload
  simp [hoctet]

/-- A packet gives a report exactly where it is a new response (R137). -/
theorem State.flag_rptValid_receivedPacket (s : State) (packet : Vector Byte 12) (rssi : BitVec 16) :
    (s.receivedPacket packet rssi).flag .rptValid =
      (decide (packet[0] ≠ s.cyc) && decide (packet[1] = s.params.mtResponseReport)) :=
  flag_rxpCommand _ .rptValid

/-- Where a packet gives a report, it is the packet's: its id, the magnitude of its RSSI and its text octets (R132–R134). -/
theorem State.peripheralReport_receivedPacket {s : State} {packet : Vector Byte 12} {rssi : BitVec 16}
    (hvalid : (s.receivedPacket packet rssi).flag .rptValid = true) :
    ∃ p, (s.receivedPacket packet rssi).peripheralReport = some p ∧ p.peripheralId = packet[2] ∧
      p.rssiMagnitude.toNat = min rssi.toInt.natAbs 255 ∧
      p.sensorText = (packet.toList.drop 7).take (min (wantedText s.params.lenConv packet[6]) 5) := by
  obtain ⟨c, res, r, st, hframe⟩ := rxpCommand_frame
    { s with fb := packet, rssiLo := rssi.extractLsb' 0 8, rssiHi := rssi.extractLsb' 8 8 }
  have hreport : IsReport s.params.lenConv (decodeFrame packet) (rssi.extractLsb' 8 8) (rssi.extractLsb' 0 8)
      (s.receivedPacket packet rssi).rpt ((s.receivedPacket packet rssi).flag .lenClamp) := by
    have hmatch := (reportMatches_rxpCommand _).report hvalid
    rw [hframe] at hmatch
    rw [State.receivedPacket, hframe]
    exact hmatch
  have htext := hreport.sensorText_cut
  obtain ⟨hid, hrssi, -⟩ := hreport
  rw [BitVec.extractLsb'_append_extractLsb'] at hrssi
  exact ⟨_, if_pos hvalid, hid, hrssi, htext⟩

/-- Settles O56: the report the block holds after RXP on the packet, or none. -/
theorem onlyANewResponseEndsListening : Obligations.OnlyANewResponseEndsListening := by
  intro c packet rssi hc
  obtain ⟨d, hstep⟩ := controllerStep_packet hc packet rssi
  refine ⟨_, hstep, rfl, fun hnew hresponse => ?_, fun hrejected => ?_⟩
  · have hvalid : (c.block.receivedPacket packet rssi).flag .rptValid = true := by
      simp [State.flag_rptValid_receivedPacket, hnew, hresponse]
    obtain ⟨p, hp, hreport⟩ := State.peripheralReport_receivedPacket hvalid
    obtain ⟨-, -, hpath⟩ := rxpCommand_of_report ((rxpCommand_rxpRes_eq_report_iff _).mpr hvalid)
    refine ⟨if_pos hvalid, ?_, p, ?_, hreport⟩
    · rw [State.receivedPacket, hpath]
      simp [acceptIfNew_eq]
    · rw [hp, Option.toList_some]
  · have hvalid : ¬ (c.block.receivedPacket packet rssi).flag .rptValid = true := by
      rw [State.flag_rptValid_receivedPacket]
      rcases hrejected with hdup | htype
      · simp [hdup]
      · simp [htype]
    exact ⟨if_neg hvalid, by simp [State.peripheralReport, hvalid]⟩

/-- The Channel Sense Gate's one comparison (R164). -/
theorem controllerStep_sample {c : Controller} {frame : List Byte} (hc : c.status = .sensingChannel frame) (rssi : Int) :
    controllerStep (.sample rssi) c = if rssi > c.thresholdDbm then .next c
      else .next { c with status := .listeningForResponse, sent := c.sent ++ [frame] } := by
  unfold controllerStep
  simp only [hc]

/-- Settles O55: the two outcomes of the gate's comparison. -/
theorem hostSendsOnAClearChannel : Obligations.HostSendsOnAClearChannel := by
  intro c frame rssi hc
  rw [controllerStep_sample hc]
  exact ⟨fun habove => if_pos habove, fun hclear => if_neg hclear.not_gt⟩

/-- Settles O57: only a received packet is taken. -/
theorem failedReceiveTouchesNothing : Obligations.FailedReceiveTouchesNothing := by
  rintro c o (rfl | rfl | rfl) hc
  all_goals
    unfold controllerStep
    simp only [hc]

/-- Every step of the controller completes, and it changes nothing, halts after a failed bring-up, or leads from a host that has
not halted into a state that is neither the halt nor ReportTimedOut (R160, R165). -/
theorem controllerStep_cases (e : HostInput) (c : Controller) : ∃ d, controllerStep e c = .next d ∧
    (d = c ∨ (c.status = .initializing ∧ e = .bringUp false ∧ d.status = .halted) ∨
      (c.status ≠ .halted ∧ d.status ≠ .halted ∧ d.status ≠ .reportTimedOut)) := by
  unfold controllerStep
  split
  next ok hc =>
    cases ok with
    | false => exact ⟨_, rfl, .inr (.inl ⟨hc, rfl, rfl⟩)⟩
    | true => exact ⟨_, rfl, .inr (.inr (by simp [hc]))⟩
  next hc => exact ⟨_, rfl, .inr (.inr (by simp [hc]))⟩
  next plen payload hc =>
    obtain ⟨t, hbuild⟩ := buildRequest_eq c.target plen payload c.block
    rw [hbuild]
    exact ⟨_, rfl, .inr (.inr (by simp [hc]))⟩
  next frame rssi hc =>
    split
    · exact ⟨c, rfl, .inl rfl⟩
    · exact ⟨_, rfl, .inr (.inr (by simp [hc]))⟩
  next packet rssi hc =>
    obtain ⟨t, htake⟩ := takePacket_eq packet rssi c.block
    rw [htake]
    cases (c.block.receivedPacket packet rssi).peripheralReport <;> exact ⟨_, rfl, .inr (.inr (by simp [hc]))⟩
  next => exact ⟨c, rfl, .inl rfl⟩

/-- Settles O58: a step that moves the controller leads into the halt from a failed bring-up alone. -/
theorem hostNeverReachesReportTimedOut : Obligations.HostNeverReachesReportTimedOut := by
  intro e c
  obtain ⟨d, hstep, hcases⟩ := controllerStep_cases e c
  refine ⟨d, hstep, ?_⟩
  rcases hcases with rfl | ⟨hc, he, hd⟩ | ⟨hc, hhalt, htimeout⟩
  · exact ⟨id, .inl, fun _ => rfl⟩
  · simp [hc, he, hd]
  · simp [hc, hhalt, htimeout]

end Sys2Proof.Machine
end

section
/-! Reset (spec/70_reset_and_hazards.md R180, R181) and what every step keeps of the model's own fields (R183, R191): the register
values after reset at the port, this hardware's parameters, and the host's schedule. -/

namespace Sys2Proof

/-- This hardware's parameters meet R5's constraints for every pair of its OPEN codes: the request code lies at most 255 octets
beyond the response code, so the two differ. -/
theorem hardware_wf : Config.hardware.wf = true := by
  have hcodes : Config.mtRequestReport ≠ Config.mtResponseReport := by
    rw [Config.mtRequestReport]
    generalize Config.mtResponseReport = response
    obtain ⟨offset, hoffset⟩ := Config.mtRequestOffset
    bv_omega
  simp [Params.wf, Config.hardware, hcodes]

namespace Machine

/-- After reset CYC holds CYC_RESET and every other register 0x00 (R181). -/
theorem State.reg_resetWith (p : Params) (r : Reg) :
    (State.resetWith p).reg r = if r = .cyc then p.cycReset else 0x00#8 := by
  cases r with
  | cyc => rfl
  | fb | txPay | rxPay | rptText | rptAux =>
    simp [State.reg, State.resetWith, Frame.zero, ReportRegs.zero]
  | _ => rfl

/-- After reset the port reads CYC_RESET at the address of CYC and 0x00 everywhere else, at the reserved addresses too (R52, R181). -/
theorem State.portRead_resetWith (p : Params) (a : Byte) :
    (State.resetWith p).portRead a = if a = 0x0E#8 then p.cycReset else 0x00#8 := by
  by_cases ha : a.toNat < 0x39
  · obtain ⟨r, rfl⟩ := Reg.exists_addr_eq ha
    have hcyc : r.addr = 0x0E#8 ↔ r = .cyc := ⟨Reg.addr_injective (q := .cyc), fun h => h ▸ rfl⟩
    rw [State.portRead_addr, State.reg_resetWith]
    simp only [hcyc]
  · have hne : a ≠ 0x0E#8 := by
      rintro rfl
      exact ha (by decide)
    rw [State.portRead_reserved _ (not_lt.mp ha), if_neg hne]

/-- The reset event leaves the registers as they are in the reset state of the block's parameters (R180). -/
theorem State.portRead_afterReset (s : State) (a : Byte) : s.afterReset.portRead a = (State.resetWith s.params).portRead a := rfl

/-- A well-formed instruction leaves the parameters (R183) and what the host does next. -/
theorem exec_keeps_params_port {i : Instr} {s t : State} (hi : i.WellFormed) (h : exec i s = .next t) :
    t.params = s.params ∧ t.port = s.port := by
  cases i with
  | rd a => cases h; exact ⟨rfl, rfl⟩
  | wr a v =>
    cases h
    obtain ⟨-, -, -, -, -, -, hparams, hport, -⟩ := s.portWrite_frame v (bne_iff_ne.mp hi)
    exact ⟨hparams, hport⟩
  | _ =>
    obtain ⟨hparams, hport, -⟩ := exec_sameEnvironment rfl h
    exact ⟨hparams, hport⟩

/-- Settles O53: an idle step changes nothing, an instruction and the reset keep the parameters and the schedule they start with,
from which the event is already taken. -/
theorem stepKeepsTheParameters : Obligations.StepKeepsTheParameters := by
  intro s t h
  rcases step_cases h with ⟨hport, rfl⟩ | ⟨w, rest, hport, hexec⟩ | ⟨rest, hport, rfl⟩
  · rw [hport]; exact ⟨rfl, rfl⟩
  · rw [hport]; exact exec_keeps_params_port (decode_wellFormed w) hexec
  · rw [hport]; exact ⟨rfl, rfl⟩

/-- Settles O7: the idle case of a step. -/
theorem stepWithoutEventChangesNothing : Obligations.StepWithoutEventChangesNothing :=
  fun _ hport => step_nil hport

/-- Settles O9: the port reads at the reset state of this hardware's parameters, and its fields. -/
theorem resetRegisterValues : Obligations.ResetRegisterValues :=
  ⟨State.portRead_resetWith Config.hardware, rfl, rfl, rfl, rfl, rfl, rfl, rfl, rfl, rfl, rfl, rfl, (noReport_iff _).mpr rfl⟩

/-- Settles O10: the reset event leads to the reset state of the block's own parameters, the rest of the schedule in place. -/
theorem resetEventRestoresEveryRegister : Obligations.ResetEventRestoresEveryRegister :=
  fun s rest hport => ⟨_, step_reset hport, rfl, rfl, fun a =>
    (State.portRead_afterReset { s with port := rest } a).trans (State.portRead_resetWith s.params a)⟩

/-- Settles O51: the reset state of well-formed parameters is coherent, and this hardware's are well-formed. -/
theorem resetIsCoherent : Obligations.ResetIsCoherent :=
  ⟨fun _ => coherent_resetWith, hardware_wf, coherent_resetWith hardware_wf⟩

end Machine

end Sys2Proof
end

section
/-! The hazards of CYC (spec/70_reset_and_hazards.md R187, R189): frames RXP finds to be duplicates because an earlier command
moved CYC to their cycle id. -/

namespace Sys2Proof.Machine

/-- What RXP leaves on a frame whose cycle id is in CYC, where its duplicate check runs: DUPLICATE, ACC_NEW 0, CYC as it was and
no report (R137). -/
theorem rxpCommand_duplicate_outcome {s : State}
    (hrun : s.params.rxpOrder = .dedupFirst ∨ s.fb[1] = s.params.mtResponseReport) (hc : s.fb[0] = s.cyc) :
    (rxpCommand s).rxpRes = 0x02#8 ∧ (rxpCommand s).flag .accNew = false ∧ (rxpCommand s).cyc = s.cyc ∧
      NoReport (rxpCommand s).rpt := by
  have hpath := rxpCommand_of_duplicate hrun hc
  have hnew : (rxpCommand s).flag .accNew = false := by simp [flag_rxpCommand, hrun, hc]
  exact ⟨by rw [hpath], hnew, by rw [hpath]; rfl, (noReport_iff _).mpr (by rw [hpath]; rfl)⟩

/-- Writing CYC's own value into the frame's cycle id and RXP: a duplicate, where the duplicate check runs (R137). -/
theorem execAll_wr_cyc_rxp {s : State} (hrun : s.params.rxpOrder = .dedupFirst ∨ s.fb[1] = s.params.mtResponseReport) :
    ∃ u, execAll [.wr 0x00#8 s.cyc, .rxp] s = .next u ∧ u.rxpRes = 0x02#8 ∧ u.flag .accNew = false ∧ u.cyc = s.cyc ∧
      NoReport u.rpt := by
  have hwr : exec (.wr 0x00#8 s.cyc) s = .next { s with fb := s.fb.set 0 s.cyc } := exec_wr_reg (.fb 0) s.cyc s rfl
  have htype : (s.fb.set 0 s.cyc)[1] = s.fb[1] := Vector.getElem_set_ne _ _ (by decide)
  refine ⟨_, execAll_cons hwr [.rxp], rxpCommand_duplicate_outcome ?_ (Vector.getElem_set_self _)⟩
  rw [htype]
  exact hrun

/-- Settles O28: NXT leaves one value in CYC and SEQ_OUT, so the check of ACC and of RXP compares it with itself. -/
theorem ownRequestEchoIsADuplicate : Obligations.OwnRequestEchoIsADuplicate := by
  intro s
  have hseq : (nxtCommand s).seqOut = (nxtCommand s).cyc := rfl
  refine ⟨_, exec_nxt s, ?_, fun hrun => ?_⟩ <;> rw [hseq]
  · obtain ⟨u, hu, hnew, hcyc⟩ := execAll_wr_acc (nxtCommand s).cyc (nxtCommand s)
    exact ⟨u, hu, hnew.trans (decide_eq_false (not_not_intro rfl)), hcyc⟩
  · exact execAll_wr_cyc_rxp hrun

/-- Settles O37: under DEDUP_FIRST the rejected frame has moved CYC to its cycle id, which the response then carries too. -/
theorem rejectedFrameStillMovesCyc : Obligations.RejectedFrameStillMovesCyc := by
  intro s W ho hnew htype hsame _
  have hbad : (rxpCommand s).rxpRes = 0x03#8 := by simp [rxpCommand_rxpRes, hnew, htype]
  have hmoved : (rxpCommand s).cyc = s.fb[0] := rxpCommand_cyc_of_dedupFirst ho
  obtain ⟨hparams, -⟩ := exec_keeps_params_port rfl (exec_rxp s)
  have ho' : (rxpCommand s).params.rxpOrder = .dedupFirst := by rw [hparams, ho]
  obtain ⟨hres, -, -, hrpt⟩ := rxpCommand_duplicate_outcome (s := { rxpCommand s with fb := W }) (.inl ho')
    (hsame.trans hmoved.symm)
  exact ⟨_, _, exec_rxp s, hbad, hmoved, exec_rxp _, hres, hrpt⟩

end Sys2Proof.Machine
end
